-- ==== Sys2Proof/Word.lean ====
section
/-! DEFINITION. The words of the machine (00_scope.md R13, R14): a byte is 8 bits, a parcel 16 bits,
an instruction word 32 bits; a register of XLEN bits is held in 64 bits, a floating-point register
of FLEN bits in 128 bits. Plain abbreviations, so that the library's `BitVec` lemmas apply. -/

namespace Sys2Proof

/-- A byte (R13). -/
abbrev Byte := BitVec 8

/-- A 16-bit parcel of instruction encoding (R13, R97). -/
abbrev Parcel := BitVec 16

/-- A 32-bit instruction word (R190). -/
abbrev InstrWord := BitVec 32

/-- What an integer register or an address is held in: the low XLEN bits are the value (R7, R41). -/
abbrev Word := BitVec 64

/-- What a floating-point register is held in: the low FLEN bits are the value (R55). -/
abbrev FWord := BitVec 128

/-- A 5-bit register number (R200). -/
abbrev RegNum := BitVec 5

/-- A 3-bit compressed register field (R806). -/
abbrev CRegNum := BitVec 3

end Sys2Proof
end

