-- ==== Sys2Proof/Config.lean ====
section
/-! DEFINITION. What an implementation or its execution environment fixes (00_scope.md R7 to R12;
92_eei_decisions.md D1 to D17), as plain data, and the free values of the spec as opaque constants:
nothing in Lean can evaluate them, so whatever is proved holds for each of them. -/

namespace Sys2Proof

/-- `XLEN` (R7). XLEN = 128 is not instantiable (41_rv64i_rv32e_rv128i.md R381). -/
inductive Xlen where
  | rv32
  | rv64
deriving DecidableEq, Repr

/-- The number of bits of an integer register and of an address (R7). -/
def Xlen.bits : Xlen → Nat
  | .rv32 => 32
  | .rv64 => 64

/-- `EXT`, the set of extensions implemented (R11). -/
structure Ext where
  m : Bool
  zmmul : Bool
  a : Bool
  zam : Bool
  f : Bool
  d : Bool
  q : Bool
  zfh : Bool
  zfhmin : Bool
  c : Bool
  zicsr : Bool
  zifencei : Bool
  zicntr : Bool
  zihpm : Bool
  zihintntl : Bool
  zihintpause : Bool
  zfinx : Bool
  zdinx : Bool
  zhinx : Bool
  zhinxmin : Bool
  ztso : Bool
deriving DecidableEq, Repr

/-- The kind of a region that is not vacant (20_memory.md R91). -/
inductive RegionKind where
  | mainMemory
  | io
deriving DecidableEq, Repr

/-- What becomes of a misaligned load or store in a region (20_memory.md R103, D2). -/
inductive Misaligned where
  /-- the access completes, bytewise -/
  | supported
  /-- address-misaligned exception -/
  | misaligned
  /-- access-fault exception -/
  | accessFault
deriving DecidableEq, Repr

/-- The nine operators of the AMO instructions (44_a_zam.md R481 to R489). -/
inductive AmoOp where
  | swap | add | xor | and | or | min | max | minu | maxu
deriving DecidableEq, Repr

/-- One entry of `REGIONS` (20_memory.md R110, D4). An address in no entry is vacant. -/
structure Region where
  base : Nat
  size : Nat
  kind : RegionKind
  /-- explicit reads permitted -/
  r : Bool
  /-- explicit writes permitted -/
  w : Bool
  /-- instruction fetch permitted -/
  x : Bool
  /-- the AMO operators an I/O region accepts; main memory accepts all (R111) -/
  amos : List AmoOp
  /-- whether an I/O region supports LR/SC; main memory does (R111) -/
  lrsc : Bool
  /-- `MISALIGNED` for loads -/
  misLoad : Misaligned
  /-- `MISALIGNED` for stores -/
  misStore : Misaligned
  /-- of an I/O region: strongly ordered (21_memory_model.md R170); no effect in one hart (entry 10) -/
  stronglyOrdered : Bool
  /-- of an I/O region: its ordering channel (21_memory_model.md R170); no effect in one hart (entry 10) -/
  channel : Nat
deriving DecidableEq, Repr

/-- `HPM[n]` (10_state.md R64, D12). -/
inductive HpmKind where
  | unimplemented
  | constant (v : BitVec 64)
  | counting
deriving DecidableEq, Repr

/-- `TRAP_POLICY` (60_exceptions.md R945, D7). -/
inductive TrapPolicy where
  | fatal
  | handled
deriving DecidableEq, Repr

/-- `MISALIGNED_ATOMIC` (20_memory.md R104, D3). -/
inductive MisalignedAtomic where
  | misaligned
  | accessFault
deriving DecidableEq, Repr

/-- A block of consecutive byte addresses. -/
structure ByteRange where
  base : Nat
  size : Nat
deriving DecidableEq, Repr

/-- One value of the parameter `RSET` (44_a_zam.md R462, D10): the reservation set of an LR of `len` bytes at
`addr`, as blocks. The bytes of the LR itself belong to the set whether or not a block holds them. -/
structure RsetEntry where
  addr : Nat
  len : Nat
  set : List ByteRange
deriving DecidableEq, Repr

/-- The configuration record of R12: fixed at launch, changed by no instruction. -/
structure Cfg where
  xlen : Xlen
  /-- RV32E / RV64E: `NXREG = 16` (R8) -/
  embedded : Bool
  ext : Ext
  /-- `ENDIAN = big` (20_memory.md R96, D1) -/
  bigEndian : Bool
  misalignedAtomic : MisalignedAtomic
  regions : List Region
  /-- `RESERVATION_GRANULE = 2 ^ (3 + granuleLog)` bytes (44_a_zam.md R462, D10) -/
  granuleLog : Nat
  /-- `RSET`, where it is not its default, the aligned granule (00_scope.md R12; 44_a_zam.md R462, D10) -/
  rset : List RsetEntry
  /-- whether a platform model lets the environment agent write main memory while the hart runs (20_memory.md
  R126, D5) -/
  agentWrites : Bool
  counterAccess : Bool
  /-- `HPM[3]` to `HPM[31]` -/
  hpm : Vector HpmKind 29
  trapPolicy : TrapPolicy
deriving DecidableEq, Repr

/-- The synchronous exceptions, by the names of 60_exceptions.md R946 and R955. -/
inductive Exn where
  | instrAddrMisaligned
  | instrAccessFault
  | illegalInstruction
  | breakpoint
  | loadAddrMisaligned
  | loadAccessFault
  | storeAddrMisaligned
  | storeAccessFault
  | environmentCall
deriving DecidableEq, Repr

/-- The record of a trap (60_exceptions.md R945): the exception, the pc of the instruction that
raised it and the value of the table of R946. -/
structure TrapRecord where
  exn : Exn
  epc : Word
  info : Word
deriving DecidableEq, Repr

/-- The state of a hart that a trap handler of the environment may replace: `pc`, `x`, `f`, `fcsr`
(60_exceptions.md R945). -/
structure HartRegs where
  pc : Word
  x : Vector Word 32
  f : Vector FWord 32
  frm : BitVec 3
  fflags : BitVec 5
deriving DecidableEq, Repr

/-- What a handler that resumes the hart answers: the new registers, and the main-memory bytes the
environment agent wrote (60_exceptions.md R945, D5). -/
structure HandlerReply where
  regs : HartRegs
  writes : List Host.Cell
deriving DecidableEq, Repr

/-! ### Free values: no body, so that nothing can be proved of them -/

/-- Whether an SC that is not forced to fail succeeds, at each draw (44_a_zam.md R465, D10). -/
opaque Config.scSucceeds : Nat → Bool

/-- How many failures of its SC a constrained LR/SC loop may see beyond the first before its SC succeeds, by the
draw at which the loop was entered: the bound behind "eventually" (44_a_zam.md R467; entry 36). -/
opaque Config.scPatience : Nat → Nat

/-- What the environment agent writes to memory at each draw, in each of its turns, where the platform lets it
(20_memory.md R126, D5). -/
opaque Config.agentWrites : Nat → Nat → List Host.Cell

/-- Where a component of an access goes among the components before it: draw, which half of an AMO, how many there
are (21_memory_model.md R132: they are not ordered; D2). -/
opaque Config.componentOrder : Nat → Nat → Nat → Nat

/-- Whether a component of an aligned access wider than XLEN ends with an offset: draw, offset (20_memory.md R107,
U46: any granularity). -/
opaque Config.componentEnds : Nat → Nat → Bool

/-- The byte an I/O device answers to an explicit read of an address, at each draw (20_memory.md R112). -/
opaque Config.ioRead : Nat → Nat → Byte

/-- The byte an instruction fetch from an I/O address returns, at each draw (20_memory.md R123). -/
opaque Config.ioFetch : Nat → Nat → Byte

/-- Which of the eligible values of a byte an instruction fetch returns (20_memory.md R120, D16):
address, draw. -/
opaque Config.fetchChoice : Nat → Nat → Nat

/-- By how much `cycle` advances at each draw (10_state.md R61, D12). -/
opaque Config.cycleAdvance : Nat → BitVec 64

/-- By how much `time` advances at each draw (10_state.md R62, D12). -/
opaque Config.timeAdvance : Nat → BitVec 64

/-- By how much the counting `hpmcounter` of an index (n - 3) advances at each draw (10_state.md R64, D12). -/
opaque Config.hpmAdvance : Nat → Nat → BitVec 64

/-- `TRAP_HANDLER` (60_exceptions.md R945): the draw, the hart's registers, memory and the record
give `none` (stop) or the state to resume with. -/
opaque Config.trapHandler : Nat → HartRegs → List Host.Cell → TrapRecord → Option HandlerReply

/-- Whether a write of the environment agent to the reservation set, outside the bytes the LR
accessed, breaks the reservation, at each draw, in each of its turns (44_a_zam.md R465). -/
opaque Config.envBreaksReservation : Nat → Nat → Bool

/-! ### Fixed by decision -/

/-- `SC_FAIL_CODE` (44_a_zam.md R464, D11). -/
def Config.scFailCode : Word := 1

/-- The extensions at reset. DESIGN CHOICE (entry 2): every member of EXT that can be implemented
together with `F`, except `Zam` and `Ztso`. -/
def Config.resetExt : Ext :=
  { m := true, zmmul := true, a := true, zam := false, f := true, d := true, q := true,
    zfh := true, zfhmin := true, c := true, zicsr := true, zifencei := true, zicntr := true,
    zihpm := true, zihintntl := true, zihintpause := true, zfinx := false, zdinx := false,
    zhinx := false, zhinxmin := false, ztso := false }

/-- The map at reset. DESIGN CHOICE (entry 2): the whole 64-bit address space is one main-memory
region with every permission, misaligned accesses supported. -/
def Config.resetRegion : Region :=
  { base := 0, size := 2 ^ 64, kind := .mainMemory, r := true, w := true, x := true,
    amos := [], lrsc := true, misLoad := .supported, misStore := .supported, stronglyOrdered := true,
    channel := 0 }

/-- The configuration at reset. DESIGN CHOICE (entry 2). -/
def Config.reset : Cfg :=
  { xlen := .rv64, embedded := false, ext := Config.resetExt, bigEndian := false,
    misalignedAtomic := .misaligned, regions := [Config.resetRegion], granuleLog := 3,
    rset := [], agentWrites := false, counterAccess := true, hpm := Vector.replicate 29 .counting, trapPolicy := .fatal }

end Sys2Proof
end

