-- ==== Sys2Proof/Syntax.lean ====
section
/-! DEFINITION. The instructions: one constructor per row of spec/opcode_table.json, with the fields of its
encoding as operands (30_encoding.md R200; 48_c.md R804). An immediate is held as the bits the encoding
carries, in the order of their significance, without the implicit zero bits below them: `imm` of a branch is
`imm[12:1]`, of C.LW `uimm[6:2]`. A field the instruction ignores (R232) is an operand too, so that no bit
of a word is lost. -/

namespace Sys2Proof

/-- An instruction of spec/opcode_table.json. -/
inductive Instr where
  /-- LUI (40_rv32i_base.md R273) -/
  | lui (rd : RegNum) (imm : BitVec 20)
  /-- AUIPC (40_rv32i_base.md R274) -/
  | auipc (rd : RegNum) (imm : BitVec 20)
  /-- JAL (40_rv32i_base.md R291) -/
  | jal (rd : RegNum) (imm : BitVec 20)
  /-- JALR (40_rv32i_base.md R292) -/
  | jalr (rd : RegNum) (rs1 : RegNum) (imm : BitVec 12)
  /-- BEQ (40_rv32i_base.md R294) -/
  | beq (rs1 : RegNum) (rs2 : RegNum) (imm : BitVec 12)
  /-- BNE (40_rv32i_base.md R295) -/
  | bne (rs1 : RegNum) (rs2 : RegNum) (imm : BitVec 12)
  /-- BLT (40_rv32i_base.md R296) -/
  | blt (rs1 : RegNum) (rs2 : RegNum) (imm : BitVec 12)
  /-- BGE (40_rv32i_base.md R297) -/
  | bge (rs1 : RegNum) (rs2 : RegNum) (imm : BitVec 12)
  /-- BLTU (40_rv32i_base.md R298) -/
  | bltu (rs1 : RegNum) (rs2 : RegNum) (imm : BitVec 12)
  /-- BGEU (40_rv32i_base.md R299) -/
  | bgeu (rs1 : RegNum) (rs2 : RegNum) (imm : BitVec 12)
  /-- LB (40_rv32i_base.md R305) -/
  | lb (rd : RegNum) (rs1 : RegNum) (imm : BitVec 12)
  /-- LH (40_rv32i_base.md R306) -/
  | lh (rd : RegNum) (rs1 : RegNum) (imm : BitVec 12)
  /-- LW (40_rv32i_base.md R307) -/
  | lw (rd : RegNum) (rs1 : RegNum) (imm : BitVec 12)
  /-- LBU (40_rv32i_base.md R308) -/
  | lbu (rd : RegNum) (rs1 : RegNum) (imm : BitVec 12)
  /-- LHU (40_rv32i_base.md R309) -/
  | lhu (rd : RegNum) (rs1 : RegNum) (imm : BitVec 12)
  /-- SB (40_rv32i_base.md R311) -/
  | sb (rs2 : RegNum) (rs1 : RegNum) (imm : BitVec 12)
  /-- SH (40_rv32i_base.md R312) -/
  | sh (rs2 : RegNum) (rs1 : RegNum) (imm : BitVec 12)
  /-- SW (40_rv32i_base.md R313) -/
  | sw (rs2 : RegNum) (rs1 : RegNum) (imm : BitVec 12)
  /-- ADDI (40_rv32i_base.md R264) -/
  | addi (rd : RegNum) (rs1 : RegNum) (imm : BitVec 12)
  /-- SLTI (40_rv32i_base.md R265) -/
  | slti (rd : RegNum) (rs1 : RegNum) (imm : BitVec 12)
  /-- SLTIU (40_rv32i_base.md R266) -/
  | sltiu (rd : RegNum) (rs1 : RegNum) (imm : BitVec 12)
  /-- XORI (40_rv32i_base.md R269) -/
  | xori (rd : RegNum) (rs1 : RegNum) (imm : BitVec 12)
  /-- ORI (40_rv32i_base.md R268) -/
  | ori (rd : RegNum) (rs1 : RegNum) (imm : BitVec 12)
  /-- ANDI (40_rv32i_base.md R267) -/
  | andi (rd : RegNum) (rs1 : RegNum) (imm : BitVec 12)
  /-- SLLI (40_rv32i_base.md R270) -/
  | slli (rd : RegNum) (rs1 : RegNum) (shamt : BitVec 6)
  /-- SRLI (40_rv32i_base.md R271) -/
  | srli (rd : RegNum) (rs1 : RegNum) (shamt : BitVec 6)
  /-- SRAI (40_rv32i_base.md R272) -/
  | srai (rd : RegNum) (rs1 : RegNum) (shamt : BitVec 6)
  /-- ADD (40_rv32i_base.md R275) -/
  | add (rd : RegNum) (rs1 : RegNum) (rs2 : RegNum)
  /-- SUB (40_rv32i_base.md R276) -/
  | sub (rd : RegNum) (rs1 : RegNum) (rs2 : RegNum)
  /-- SLL (40_rv32i_base.md R277) -/
  | sll (rd : RegNum) (rs1 : RegNum) (rs2 : RegNum)
  /-- SLT (40_rv32i_base.md R278) -/
  | slt (rd : RegNum) (rs1 : RegNum) (rs2 : RegNum)
  /-- SLTU (40_rv32i_base.md R279) -/
  | sltu (rd : RegNum) (rs1 : RegNum) (rs2 : RegNum)
  /-- XOR (40_rv32i_base.md R280) -/
  | xor (rd : RegNum) (rs1 : RegNum) (rs2 : RegNum)
  /-- SRL (40_rv32i_base.md R281) -/
  | srl (rd : RegNum) (rs1 : RegNum) (rs2 : RegNum)
  /-- SRA (40_rv32i_base.md R282) -/
  | sra (rd : RegNum) (rs1 : RegNum) (rs2 : RegNum)
  /-- OR (40_rv32i_base.md R283) -/
  | or (rd : RegNum) (rs1 : RegNum) (rs2 : RegNum)
  /-- AND (40_rv32i_base.md R284) -/
  | and (rd : RegNum) (rs1 : RegNum) (rs2 : RegNum)
  /-- FENCE (40_rv32i_base.md R315) -/
  | fence (fm : BitVec 4) (pred : BitVec 4) (succ : BitVec 4) (rs1 : RegNum) (rd : RegNum)
  /-- FENCE.TSO (40_rv32i_base.md R316) -/
  | fenceTso
  /-- PAUSE (42_zifencei_hints.md R415) -/
  | pause
  /-- ECALL (40_rv32i_base.md R321) -/
  | ecall
  /-- EBREAK (40_rv32i_base.md R322) -/
  | ebreak
  /-- NTL.P1 (42_zifencei_hints.md R406) -/
  | ntlP1
  /-- NTL.PALL (42_zifencei_hints.md R407) -/
  | ntlPall
  /-- NTL.S1 (42_zifencei_hints.md R408) -/
  | ntlS1
  /-- NTL.ALL (42_zifencei_hints.md R409) -/
  | ntlAll
  /-- LWU (41_rv64i_rv32e_rv128i.md R357) -/
  | lwu (rd : RegNum) (rs1 : RegNum) (imm : BitVec 12)
  /-- LD (41_rv64i_rv32e_rv128i.md R356) -/
  | ld (rd : RegNum) (rs1 : RegNum) (imm : BitVec 12)
  /-- SD (41_rv64i_rv32e_rv128i.md R358) -/
  | sd (rs2 : RegNum) (rs1 : RegNum) (imm : BitVec 12)
  /-- ADDIW (41_rv64i_rv32e_rv128i.md R342) -/
  | addiw (rd : RegNum) (rs1 : RegNum) (imm : BitVec 12)
  /-- SLLIW (41_rv64i_rv32e_rv128i.md R344) -/
  | slliw (rd : RegNum) (rs1 : RegNum) (shamt : BitVec 5)
  /-- SRLIW (41_rv64i_rv32e_rv128i.md R345) -/
  | srliw (rd : RegNum) (rs1 : RegNum) (shamt : BitVec 5)
  /-- SRAIW (41_rv64i_rv32e_rv128i.md R346) -/
  | sraiw (rd : RegNum) (rs1 : RegNum) (shamt : BitVec 5)
  /-- ADDW (41_rv64i_rv32e_rv128i.md R350) -/
  | addw (rd : RegNum) (rs1 : RegNum) (rs2 : RegNum)
  /-- SUBW (41_rv64i_rv32e_rv128i.md R351) -/
  | subw (rd : RegNum) (rs1 : RegNum) (rs2 : RegNum)
  /-- SLLW (41_rv64i_rv32e_rv128i.md R352) -/
  | sllw (rd : RegNum) (rs1 : RegNum) (rs2 : RegNum)
  /-- SRLW (41_rv64i_rv32e_rv128i.md R353) -/
  | srlw (rd : RegNum) (rs1 : RegNum) (rs2 : RegNum)
  /-- SRAW (41_rv64i_rv32e_rv128i.md R354) -/
  | sraw (rd : RegNum) (rs1 : RegNum) (rs2 : RegNum)
  /-- FENCE.I (42_zifencei_hints.md R400) -/
  | fenceI (imm : BitVec 12) (rs1 : RegNum) (rd : RegNum)
  /-- CSRRW (45_zicsr_counters.md R524) -/
  | csrrw (rd : RegNum) (csr : BitVec 12) (rs1 : RegNum)
  /-- CSRRS (45_zicsr_counters.md R525) -/
  | csrrs (rd : RegNum) (csr : BitVec 12) (rs1 : RegNum)
  /-- CSRRC (45_zicsr_counters.md R526) -/
  | csrrc (rd : RegNum) (csr : BitVec 12) (rs1 : RegNum)
  /-- CSRRWI (45_zicsr_counters.md R527) -/
  | csrrwi (rd : RegNum) (csr : BitVec 12) (uimm : BitVec 5)
  /-- CSRRSI (45_zicsr_counters.md R528) -/
  | csrrsi (rd : RegNum) (csr : BitVec 12) (uimm : BitVec 5)
  /-- CSRRCI (45_zicsr_counters.md R529) -/
  | csrrci (rd : RegNum) (csr : BitVec 12) (uimm : BitVec 5)
  /-- MUL (43_m_zmmul.md R431) -/
  | mul (rd : RegNum) (rs1 : RegNum) (rs2 : RegNum)
  /-- MULH (43_m_zmmul.md R432) -/
  | mulh (rd : RegNum) (rs1 : RegNum) (rs2 : RegNum)
  /-- MULHSU (43_m_zmmul.md R433) -/
  | mulhsu (rd : RegNum) (rs1 : RegNum) (rs2 : RegNum)
  /-- MULHU (43_m_zmmul.md R434) -/
  | mulhu (rd : RegNum) (rs1 : RegNum) (rs2 : RegNum)
  /-- DIV (43_m_zmmul.md R440) -/
  | div (rd : RegNum) (rs1 : RegNum) (rs2 : RegNum)
  /-- DIVU (43_m_zmmul.md R441) -/
  | divu (rd : RegNum) (rs1 : RegNum) (rs2 : RegNum)
  /-- REM (43_m_zmmul.md R442) -/
  | rem (rd : RegNum) (rs1 : RegNum) (rs2 : RegNum)
  /-- REMU (43_m_zmmul.md R443) -/
  | remu (rd : RegNum) (rs1 : RegNum) (rs2 : RegNum)
  /-- MULW (43_m_zmmul.md R435) -/
  | mulw (rd : RegNum) (rs1 : RegNum) (rs2 : RegNum)
  /-- DIVW (43_m_zmmul.md R444) -/
  | divw (rd : RegNum) (rs1 : RegNum) (rs2 : RegNum)
  /-- DIVUW (43_m_zmmul.md R444) -/
  | divuw (rd : RegNum) (rs1 : RegNum) (rs2 : RegNum)
  /-- REMW (43_m_zmmul.md R444) -/
  | remw (rd : RegNum) (rs1 : RegNum) (rs2 : RegNum)
  /-- REMUW (43_m_zmmul.md R444) -/
  | remuw (rd : RegNum) (rs1 : RegNum) (rs2 : RegNum)
  /-- LR.W (44_a_zam.md R463) -/
  | lrW (rd : RegNum) (rs1 : RegNum) (aq : BitVec 1) (rl : BitVec 1)
  /-- SC.W (44_a_zam.md R464) -/
  | scW (rd : RegNum) (rs1 : RegNum) (rs2 : RegNum) (aq : BitVec 1) (rl : BitVec 1)
  /-- AMOSWAP.W (44_a_zam.md R481) -/
  | amoswapW (rd : RegNum) (rs1 : RegNum) (rs2 : RegNum) (aq : BitVec 1) (rl : BitVec 1)
  /-- AMOADD.W (44_a_zam.md R482) -/
  | amoaddW (rd : RegNum) (rs1 : RegNum) (rs2 : RegNum) (aq : BitVec 1) (rl : BitVec 1)
  /-- AMOXOR.W (44_a_zam.md R483) -/
  | amoxorW (rd : RegNum) (rs1 : RegNum) (rs2 : RegNum) (aq : BitVec 1) (rl : BitVec 1)
  /-- AMOAND.W (44_a_zam.md R484) -/
  | amoandW (rd : RegNum) (rs1 : RegNum) (rs2 : RegNum) (aq : BitVec 1) (rl : BitVec 1)
  /-- AMOOR.W (44_a_zam.md R485) -/
  | amoorW (rd : RegNum) (rs1 : RegNum) (rs2 : RegNum) (aq : BitVec 1) (rl : BitVec 1)
  /-- AMOMIN.W (44_a_zam.md R486) -/
  | amominW (rd : RegNum) (rs1 : RegNum) (rs2 : RegNum) (aq : BitVec 1) (rl : BitVec 1)
  /-- AMOMAX.W (44_a_zam.md R487) -/
  | amomaxW (rd : RegNum) (rs1 : RegNum) (rs2 : RegNum) (aq : BitVec 1) (rl : BitVec 1)
  /-- AMOMINU.W (44_a_zam.md R488) -/
  | amominuW (rd : RegNum) (rs1 : RegNum) (rs2 : RegNum) (aq : BitVec 1) (rl : BitVec 1)
  /-- AMOMAXU.W (44_a_zam.md R489) -/
  | amomaxuW (rd : RegNum) (rs1 : RegNum) (rs2 : RegNum) (aq : BitVec 1) (rl : BitVec 1)
  /-- LR.D (44_a_zam.md R466) -/
  | lrD (rd : RegNum) (rs1 : RegNum) (aq : BitVec 1) (rl : BitVec 1)
  /-- SC.D (44_a_zam.md R466) -/
  | scD (rd : RegNum) (rs1 : RegNum) (rs2 : RegNum) (aq : BitVec 1) (rl : BitVec 1)
  /-- AMOSWAP.D (44_a_zam.md R481) -/
  | amoswapD (rd : RegNum) (rs1 : RegNum) (rs2 : RegNum) (aq : BitVec 1) (rl : BitVec 1)
  /-- AMOADD.D (44_a_zam.md R482) -/
  | amoaddD (rd : RegNum) (rs1 : RegNum) (rs2 : RegNum) (aq : BitVec 1) (rl : BitVec 1)
  /-- AMOXOR.D (44_a_zam.md R483) -/
  | amoxorD (rd : RegNum) (rs1 : RegNum) (rs2 : RegNum) (aq : BitVec 1) (rl : BitVec 1)
  /-- AMOAND.D (44_a_zam.md R484) -/
  | amoandD (rd : RegNum) (rs1 : RegNum) (rs2 : RegNum) (aq : BitVec 1) (rl : BitVec 1)
  /-- AMOOR.D (44_a_zam.md R485) -/
  | amoorD (rd : RegNum) (rs1 : RegNum) (rs2 : RegNum) (aq : BitVec 1) (rl : BitVec 1)
  /-- AMOMIN.D (44_a_zam.md R486) -/
  | amominD (rd : RegNum) (rs1 : RegNum) (rs2 : RegNum) (aq : BitVec 1) (rl : BitVec 1)
  /-- AMOMAX.D (44_a_zam.md R487) -/
  | amomaxD (rd : RegNum) (rs1 : RegNum) (rs2 : RegNum) (aq : BitVec 1) (rl : BitVec 1)
  /-- AMOMINU.D (44_a_zam.md R488) -/
  | amominuD (rd : RegNum) (rs1 : RegNum) (rs2 : RegNum) (aq : BitVec 1) (rl : BitVec 1)
  /-- AMOMAXU.D (44_a_zam.md R489) -/
  | amomaxuD (rd : RegNum) (rs1 : RegNum) (rs2 : RegNum) (aq : BitVec 1) (rl : BitVec 1)
  /-- FLW (46_f.md R581) -/
  | flw (rd : RegNum) (rs1 : RegNum) (imm : BitVec 12)
  /-- FSW (46_f.md R582) -/
  | fsw (rs2 : RegNum) (rs1 : RegNum) (imm : BitVec 12)
  /-- FMADD.S (46_f.md R593) -/
  | fmaddS (rd : RegNum) (rs1 : RegNum) (rs2 : RegNum) (rs3 : RegNum) (rm : BitVec 3)
  /-- FMSUB.S (46_f.md R594) -/
  | fmsubS (rd : RegNum) (rs1 : RegNum) (rs2 : RegNum) (rs3 : RegNum) (rm : BitVec 3)
  /-- FNMSUB.S (46_f.md R595) -/
  | fnmsubS (rd : RegNum) (rs1 : RegNum) (rs2 : RegNum) (rs3 : RegNum) (rm : BitVec 3)
  /-- FNMADD.S (46_f.md R596) -/
  | fnmaddS (rd : RegNum) (rs1 : RegNum) (rs2 : RegNum) (rs3 : RegNum) (rm : BitVec 3)
  /-- FADD.S (46_f.md R585) -/
  | faddS (rd : RegNum) (rs1 : RegNum) (rs2 : RegNum) (rm : BitVec 3)
  /-- FSUB.S (46_f.md R586) -/
  | fsubS (rd : RegNum) (rs1 : RegNum) (rs2 : RegNum) (rm : BitVec 3)
  /-- FMUL.S (46_f.md R587) -/
  | fmulS (rd : RegNum) (rs1 : RegNum) (rs2 : RegNum) (rm : BitVec 3)
  /-- FDIV.S (46_f.md R588) -/
  | fdivS (rd : RegNum) (rs1 : RegNum) (rs2 : RegNum) (rm : BitVec 3)
  /-- FSQRT.S (46_f.md R589) -/
  | fsqrtS (rd : RegNum) (rs1 : RegNum) (rm : BitVec 3)
  /-- FSGNJ.S (46_f.md R610) -/
  | fsgnjS (rd : RegNum) (rs1 : RegNum) (rs2 : RegNum)
  /-- FSGNJN.S (46_f.md R611) -/
  | fsgnjnS (rd : RegNum) (rs1 : RegNum) (rs2 : RegNum)
  /-- FSGNJX.S (46_f.md R612) -/
  | fsgnjxS (rd : RegNum) (rs1 : RegNum) (rs2 : RegNum)
  /-- FMIN.S (46_f.md R590) -/
  | fminS (rd : RegNum) (rs1 : RegNum) (rs2 : RegNum)
  /-- FMAX.S (46_f.md R591) -/
  | fmaxS (rd : RegNum) (rs1 : RegNum) (rs2 : RegNum)
  /-- FCVT.W.S (46_f.md R601) -/
  | fcvtWS (rd : RegNum) (rs1 : RegNum) (rm : BitVec 3)
  /-- FCVT.WU.S (46_f.md R602) -/
  | fcvtWuS (rd : RegNum) (rs1 : RegNum) (rm : BitVec 3)
  /-- FCVT.L.S (46_f.md R603) -/
  | fcvtLS (rd : RegNum) (rs1 : RegNum) (rm : BitVec 3)
  /-- FCVT.LU.S (46_f.md R604) -/
  | fcvtLuS (rd : RegNum) (rs1 : RegNum) (rm : BitVec 3)
  /-- FCVT.S.W (46_f.md R605) -/
  | fcvtSW (rd : RegNum) (rs1 : RegNum) (rm : BitVec 3)
  /-- FCVT.S.WU (46_f.md R606) -/
  | fcvtSWu (rd : RegNum) (rs1 : RegNum) (rm : BitVec 3)
  /-- FCVT.S.L (46_f.md R607) -/
  | fcvtSL (rd : RegNum) (rs1 : RegNum) (rm : BitVec 3)
  /-- FCVT.S.LU (46_f.md R608) -/
  | fcvtSLu (rd : RegNum) (rs1 : RegNum) (rm : BitVec 3)
  /-- FEQ.S (46_f.md R615) -/
  | feqS (rd : RegNum) (rs1 : RegNum) (rs2 : RegNum)
  /-- FLT.S (46_f.md R616) -/
  | fltS (rd : RegNum) (rs1 : RegNum) (rs2 : RegNum)
  /-- FLE.S (46_f.md R617) -/
  | fleS (rd : RegNum) (rs1 : RegNum) (rs2 : RegNum)
  /-- FCLASS.S (46_f.md R618) -/
  | fclassS (rd : RegNum) (rs1 : RegNum)
  /-- FMV.X.W (46_f.md R613) -/
  | fmvXW (rd : RegNum) (rs1 : RegNum)
  /-- FMV.W.X (46_f.md R614) -/
  | fmvWX (rd : RegNum) (rs1 : RegNum)
  /-- FLD (47_d.md R670) -/
  | fld (rd : RegNum) (rs1 : RegNum) (imm : BitVec 12)
  /-- FSD (47_d.md R671) -/
  | fsd (rs2 : RegNum) (rs1 : RegNum) (imm : BitVec 12)
  /-- FMADD.D (47_d.md R679) -/
  | fmaddD (rd : RegNum) (rs1 : RegNum) (rs2 : RegNum) (rs3 : RegNum) (rm : BitVec 3)
  /-- FMSUB.D (47_d.md R680) -/
  | fmsubD (rd : RegNum) (rs1 : RegNum) (rs2 : RegNum) (rs3 : RegNum) (rm : BitVec 3)
  /-- FNMSUB.D (47_d.md R681) -/
  | fnmsubD (rd : RegNum) (rs1 : RegNum) (rs2 : RegNum) (rs3 : RegNum) (rm : BitVec 3)
  /-- FNMADD.D (47_d.md R682) -/
  | fnmaddD (rd : RegNum) (rs1 : RegNum) (rs2 : RegNum) (rs3 : RegNum) (rm : BitVec 3)
  /-- FADD.D (47_d.md R672) -/
  | faddD (rd : RegNum) (rs1 : RegNum) (rs2 : RegNum) (rm : BitVec 3)
  /-- FSUB.D (47_d.md R673) -/
  | fsubD (rd : RegNum) (rs1 : RegNum) (rs2 : RegNum) (rm : BitVec 3)
  /-- FMUL.D (47_d.md R674) -/
  | fmulD (rd : RegNum) (rs1 : RegNum) (rs2 : RegNum) (rm : BitVec 3)
  /-- FDIV.D (47_d.md R675) -/
  | fdivD (rd : RegNum) (rs1 : RegNum) (rs2 : RegNum) (rm : BitVec 3)
  /-- FSQRT.D (47_d.md R676) -/
  | fsqrtD (rd : RegNum) (rs1 : RegNum) (rm : BitVec 3)
  /-- FSGNJ.D (47_d.md R693) -/
  | fsgnjD (rd : RegNum) (rs1 : RegNum) (rs2 : RegNum)
  /-- FSGNJN.D (47_d.md R694) -/
  | fsgnjnD (rd : RegNum) (rs1 : RegNum) (rs2 : RegNum)
  /-- FSGNJX.D (47_d.md R695) -/
  | fsgnjxD (rd : RegNum) (rs1 : RegNum) (rs2 : RegNum)
  /-- FMIN.D (47_d.md R677) -/
  | fminD (rd : RegNum) (rs1 : RegNum) (rs2 : RegNum)
  /-- FMAX.D (47_d.md R678) -/
  | fmaxD (rd : RegNum) (rs1 : RegNum) (rs2 : RegNum)
  /-- FCVT.W.D (47_d.md R683) -/
  | fcvtWD (rd : RegNum) (rs1 : RegNum) (rm : BitVec 3)
  /-- FCVT.WU.D (47_d.md R684) -/
  | fcvtWuD (rd : RegNum) (rs1 : RegNum) (rm : BitVec 3)
  /-- FCVT.L.D (47_d.md R685) -/
  | fcvtLD (rd : RegNum) (rs1 : RegNum) (rm : BitVec 3)
  /-- FCVT.LU.D (47_d.md R686) -/
  | fcvtLuD (rd : RegNum) (rs1 : RegNum) (rm : BitVec 3)
  /-- FCVT.D.W (47_d.md R687) -/
  | fcvtDW (rd : RegNum) (rs1 : RegNum) (rm : BitVec 3)
  /-- FCVT.D.WU (47_d.md R688) -/
  | fcvtDWu (rd : RegNum) (rs1 : RegNum) (rm : BitVec 3)
  /-- FCVT.D.L (47_d.md R689) -/
  | fcvtDL (rd : RegNum) (rs1 : RegNum) (rm : BitVec 3)
  /-- FCVT.D.LU (47_d.md R690) -/
  | fcvtDLu (rd : RegNum) (rs1 : RegNum) (rm : BitVec 3)
  /-- FEQ.D (47_d.md R698) -/
  | feqD (rd : RegNum) (rs1 : RegNum) (rs2 : RegNum)
  /-- FLT.D (47_d.md R699) -/
  | fltD (rd : RegNum) (rs1 : RegNum) (rs2 : RegNum)
  /-- FLE.D (47_d.md R700) -/
  | fleD (rd : RegNum) (rs1 : RegNum) (rs2 : RegNum)
  /-- FCLASS.D (47_d.md R701) -/
  | fclassD (rd : RegNum) (rs1 : RegNum)
  /-- FCVT.S.D (47_d.md R691) -/
  | fcvtSD (rd : RegNum) (rs1 : RegNum) (rm : BitVec 3)
  /-- FCVT.D.S (47_d.md R692) -/
  | fcvtDS (rd : RegNum) (rs1 : RegNum) (rm : BitVec 3)
  /-- FMV.X.D (47_d.md R696) -/
  | fmvXD (rd : RegNum) (rs1 : RegNum)
  /-- FMV.D.X (47_d.md R697) -/
  | fmvDX (rd : RegNum) (rs1 : RegNum)
  /-- FLQ (47_q.md R710) -/
  | flq (rd : RegNum) (rs1 : RegNum) (imm : BitVec 12)
  /-- FSQ (47_q.md R711) -/
  | fsq (rs2 : RegNum) (rs1 : RegNum) (imm : BitVec 12)
  /-- FMADD.Q (47_q.md R719) -/
  | fmaddQ (rd : RegNum) (rs1 : RegNum) (rs2 : RegNum) (rs3 : RegNum) (rm : BitVec 3)
  /-- FMSUB.Q (47_q.md R720) -/
  | fmsubQ (rd : RegNum) (rs1 : RegNum) (rs2 : RegNum) (rs3 : RegNum) (rm : BitVec 3)
  /-- FNMSUB.Q (47_q.md R721) -/
  | fnmsubQ (rd : RegNum) (rs1 : RegNum) (rs2 : RegNum) (rs3 : RegNum) (rm : BitVec 3)
  /-- FNMADD.Q (47_q.md R722) -/
  | fnmaddQ (rd : RegNum) (rs1 : RegNum) (rs2 : RegNum) (rs3 : RegNum) (rm : BitVec 3)
  /-- FADD.Q (47_q.md R712) -/
  | faddQ (rd : RegNum) (rs1 : RegNum) (rs2 : RegNum) (rm : BitVec 3)
  /-- FSUB.Q (47_q.md R713) -/
  | fsubQ (rd : RegNum) (rs1 : RegNum) (rs2 : RegNum) (rm : BitVec 3)
  /-- FMUL.Q (47_q.md R714) -/
  | fmulQ (rd : RegNum) (rs1 : RegNum) (rs2 : RegNum) (rm : BitVec 3)
  /-- FDIV.Q (47_q.md R715) -/
  | fdivQ (rd : RegNum) (rs1 : RegNum) (rs2 : RegNum) (rm : BitVec 3)
  /-- FSQRT.Q (47_q.md R716) -/
  | fsqrtQ (rd : RegNum) (rs1 : RegNum) (rm : BitVec 3)
  /-- FSGNJ.Q (47_q.md R735) -/
  | fsgnjQ (rd : RegNum) (rs1 : RegNum) (rs2 : RegNum)
  /-- FSGNJN.Q (47_q.md R736) -/
  | fsgnjnQ (rd : RegNum) (rs1 : RegNum) (rs2 : RegNum)
  /-- FSGNJX.Q (47_q.md R737) -/
  | fsgnjxQ (rd : RegNum) (rs1 : RegNum) (rs2 : RegNum)
  /-- FMIN.Q (47_q.md R717) -/
  | fminQ (rd : RegNum) (rs1 : RegNum) (rs2 : RegNum)
  /-- FMAX.Q (47_q.md R718) -/
  | fmaxQ (rd : RegNum) (rs1 : RegNum) (rs2 : RegNum)
  /-- FCVT.W.Q (47_q.md R723) -/
  | fcvtWQ (rd : RegNum) (rs1 : RegNum) (rm : BitVec 3)
  /-- FCVT.WU.Q (47_q.md R724) -/
  | fcvtWuQ (rd : RegNum) (rs1 : RegNum) (rm : BitVec 3)
  /-- FCVT.L.Q (47_q.md R725) -/
  | fcvtLQ (rd : RegNum) (rs1 : RegNum) (rm : BitVec 3)
  /-- FCVT.LU.Q (47_q.md R726) -/
  | fcvtLuQ (rd : RegNum) (rs1 : RegNum) (rm : BitVec 3)
  /-- FCVT.Q.W (47_q.md R727) -/
  | fcvtQW (rd : RegNum) (rs1 : RegNum) (rm : BitVec 3)
  /-- FCVT.Q.WU (47_q.md R728) -/
  | fcvtQWu (rd : RegNum) (rs1 : RegNum) (rm : BitVec 3)
  /-- FCVT.Q.L (47_q.md R729) -/
  | fcvtQL (rd : RegNum) (rs1 : RegNum) (rm : BitVec 3)
  /-- FCVT.Q.LU (47_q.md R730) -/
  | fcvtQLu (rd : RegNum) (rs1 : RegNum) (rm : BitVec 3)
  /-- FEQ.Q (47_q.md R738) -/
  | feqQ (rd : RegNum) (rs1 : RegNum) (rs2 : RegNum)
  /-- FLT.Q (47_q.md R739) -/
  | fltQ (rd : RegNum) (rs1 : RegNum) (rs2 : RegNum)
  /-- FLE.Q (47_q.md R740) -/
  | fleQ (rd : RegNum) (rs1 : RegNum) (rs2 : RegNum)
  /-- FCLASS.Q (47_q.md R741) -/
  | fclassQ (rd : RegNum) (rs1 : RegNum)
  /-- FCVT.S.Q (47_q.md R731) -/
  | fcvtSQ (rd : RegNum) (rs1 : RegNum) (rm : BitVec 3)
  /-- FCVT.Q.S (47_q.md R732) -/
  | fcvtQS (rd : RegNum) (rs1 : RegNum) (rm : BitVec 3)
  /-- FCVT.D.Q (47_q.md R733) -/
  | fcvtDQ (rd : RegNum) (rs1 : RegNum) (rm : BitVec 3)
  /-- FCVT.Q.D (47_q.md R734) -/
  | fcvtQD (rd : RegNum) (rs1 : RegNum) (rm : BitVec 3)
  /-- FLH (47_zfh_zfhmin.md R750) -/
  | flh (rd : RegNum) (rs1 : RegNum) (imm : BitVec 12)
  /-- FSH (47_zfh_zfhmin.md R751) -/
  | fsh (rs2 : RegNum) (rs1 : RegNum) (imm : BitVec 12)
  /-- FMADD.H (47_zfh_zfhmin.md R759) -/
  | fmaddH (rd : RegNum) (rs1 : RegNum) (rs2 : RegNum) (rs3 : RegNum) (rm : BitVec 3)
  /-- FMSUB.H (47_zfh_zfhmin.md R760) -/
  | fmsubH (rd : RegNum) (rs1 : RegNum) (rs2 : RegNum) (rs3 : RegNum) (rm : BitVec 3)
  /-- FNMSUB.H (47_zfh_zfhmin.md R761) -/
  | fnmsubH (rd : RegNum) (rs1 : RegNum) (rs2 : RegNum) (rs3 : RegNum) (rm : BitVec 3)
  /-- FNMADD.H (47_zfh_zfhmin.md R762) -/
  | fnmaddH (rd : RegNum) (rs1 : RegNum) (rs2 : RegNum) (rs3 : RegNum) (rm : BitVec 3)
  /-- FADD.H (47_zfh_zfhmin.md R752) -/
  | faddH (rd : RegNum) (rs1 : RegNum) (rs2 : RegNum) (rm : BitVec 3)
  /-- FSUB.H (47_zfh_zfhmin.md R753) -/
  | fsubH (rd : RegNum) (rs1 : RegNum) (rs2 : RegNum) (rm : BitVec 3)
  /-- FMUL.H (47_zfh_zfhmin.md R754) -/
  | fmulH (rd : RegNum) (rs1 : RegNum) (rs2 : RegNum) (rm : BitVec 3)
  /-- FDIV.H (47_zfh_zfhmin.md R755) -/
  | fdivH (rd : RegNum) (rs1 : RegNum) (rs2 : RegNum) (rm : BitVec 3)
  /-- FSQRT.H (47_zfh_zfhmin.md R756) -/
  | fsqrtH (rd : RegNum) (rs1 : RegNum) (rm : BitVec 3)
  /-- FSGNJ.H (47_zfh_zfhmin.md R777) -/
  | fsgnjH (rd : RegNum) (rs1 : RegNum) (rs2 : RegNum)
  /-- FSGNJN.H (47_zfh_zfhmin.md R778) -/
  | fsgnjnH (rd : RegNum) (rs1 : RegNum) (rs2 : RegNum)
  /-- FSGNJX.H (47_zfh_zfhmin.md R779) -/
  | fsgnjxH (rd : RegNum) (rs1 : RegNum) (rs2 : RegNum)
  /-- FMIN.H (47_zfh_zfhmin.md R757) -/
  | fminH (rd : RegNum) (rs1 : RegNum) (rs2 : RegNum)
  /-- FMAX.H (47_zfh_zfhmin.md R758) -/
  | fmaxH (rd : RegNum) (rs1 : RegNum) (rs2 : RegNum)
  /-- FCVT.W.H (47_zfh_zfhmin.md R763) -/
  | fcvtWH (rd : RegNum) (rs1 : RegNum) (rm : BitVec 3)
  /-- FCVT.WU.H (47_zfh_zfhmin.md R764) -/
  | fcvtWuH (rd : RegNum) (rs1 : RegNum) (rm : BitVec 3)
  /-- FCVT.L.H (47_zfh_zfhmin.md R765) -/
  | fcvtLH (rd : RegNum) (rs1 : RegNum) (rm : BitVec 3)
  /-- FCVT.LU.H (47_zfh_zfhmin.md R766) -/
  | fcvtLuH (rd : RegNum) (rs1 : RegNum) (rm : BitVec 3)
  /-- FCVT.H.W (47_zfh_zfhmin.md R767) -/
  | fcvtHW (rd : RegNum) (rs1 : RegNum) (rm : BitVec 3)
  /-- FCVT.H.WU (47_zfh_zfhmin.md R768) -/
  | fcvtHWu (rd : RegNum) (rs1 : RegNum) (rm : BitVec 3)
  /-- FCVT.H.L (47_zfh_zfhmin.md R769) -/
  | fcvtHL (rd : RegNum) (rs1 : RegNum) (rm : BitVec 3)
  /-- FCVT.H.LU (47_zfh_zfhmin.md R770) -/
  | fcvtHLu (rd : RegNum) (rs1 : RegNum) (rm : BitVec 3)
  /-- FEQ.H (47_zfh_zfhmin.md R782) -/
  | feqH (rd : RegNum) (rs1 : RegNum) (rs2 : RegNum)
  /-- FLT.H (47_zfh_zfhmin.md R783) -/
  | fltH (rd : RegNum) (rs1 : RegNum) (rs2 : RegNum)
  /-- FLE.H (47_zfh_zfhmin.md R784) -/
  | fleH (rd : RegNum) (rs1 : RegNum) (rs2 : RegNum)
  /-- FCLASS.H (47_zfh_zfhmin.md R785) -/
  | fclassH (rd : RegNum) (rs1 : RegNum)
  /-- FCVT.S.H (47_zfh_zfhmin.md R771) -/
  | fcvtSH (rd : RegNum) (rs1 : RegNum) (rm : BitVec 3)
  /-- FCVT.H.S (47_zfh_zfhmin.md R772) -/
  | fcvtHS (rd : RegNum) (rs1 : RegNum) (rm : BitVec 3)
  /-- FCVT.D.H (47_zfh_zfhmin.md R773) -/
  | fcvtDH (rd : RegNum) (rs1 : RegNum) (rm : BitVec 3)
  /-- FCVT.H.D (47_zfh_zfhmin.md R774) -/
  | fcvtHD (rd : RegNum) (rs1 : RegNum) (rm : BitVec 3)
  /-- FCVT.Q.H (47_zfh_zfhmin.md R775) -/
  | fcvtQH (rd : RegNum) (rs1 : RegNum) (rm : BitVec 3)
  /-- FCVT.H.Q (47_zfh_zfhmin.md R776) -/
  | fcvtHQ (rd : RegNum) (rs1 : RegNum) (rm : BitVec 3)
  /-- FMV.X.H (47_zfh_zfhmin.md R780) -/
  | fmvXH (rd : RegNum) (rs1 : RegNum)
  /-- FMV.H.X (47_zfh_zfhmin.md R781) -/
  | fmvHX (rd : RegNum) (rs1 : RegNum)
  /-- C.ADDI4SPN (48_c.md R845) -/
  | cAddi4spn (rd : CRegNum) (imm : BitVec 8)
  /-- C.FLD (48_c.md R821) -/
  | cFld (rd : CRegNum) (rs1 : CRegNum) (imm : BitVec 5)
  /-- C.LW (48_c.md R818) -/
  | cLw (rd : CRegNum) (rs1 : CRegNum) (imm : BitVec 5)
  /-- C.FLW (48_c.md R820) -/
  | cFlw (rd : CRegNum) (rs1 : CRegNum) (imm : BitVec 5)
  /-- C.LD (48_c.md R819) -/
  | cLd (rd : CRegNum) (rs1 : CRegNum) (imm : BitVec 5)
  /-- C.FSD (48_c.md R825) -/
  | cFsd (rs2 : CRegNum) (rs1 : CRegNum) (imm : BitVec 5)
  /-- C.SW (48_c.md R822) -/
  | cSw (rs2 : CRegNum) (rs1 : CRegNum) (imm : BitVec 5)
  /-- C.FSW (48_c.md R824) -/
  | cFsw (rs2 : CRegNum) (rs1 : CRegNum) (imm : BitVec 5)
  /-- C.SD (48_c.md R823) -/
  | cSd (rs2 : CRegNum) (rs1 : CRegNum) (imm : BitVec 5)
  /-- C.NOP (48_c.md R859) -/
  | cNop (imm : BitVec 6)
  /-- C.ADDI (48_c.md R842) -/
  | cAddi (rd : RegNum) (imm : BitVec 6)
  /-- C.JAL (48_c.md R831) -/
  | cJal (off : BitVec 11)
  /-- C.ADDIW (48_c.md R843) -/
  | cAddiw (rd : RegNum) (imm : BitVec 6)
  /-- C.LI (48_c.md R840) -/
  | cLi (rd : RegNum) (imm : BitVec 6)
  /-- C.ADDI16SP (48_c.md R844) -/
  | cAddi16sp (imm : BitVec 6)
  /-- C.LUI (48_c.md R841) -/
  | cLui (rd : RegNum) (imm : BitVec 6)
  /-- C.SRLI (48_c.md R847) -/
  | cSrli (rd : CRegNum) (shamt : BitVec 6)
  /-- C.SRAI (48_c.md R848) -/
  | cSrai (rd : CRegNum) (shamt : BitVec 6)
  /-- C.ANDI (48_c.md R849) -/
  | cAndi (rd : CRegNum) (imm : BitVec 6)
  /-- C.SUB (48_c.md R855) -/
  | cSub (rd : CRegNum) (rs2 : CRegNum)
  /-- C.XOR (48_c.md R854) -/
  | cXor (rd : CRegNum) (rs2 : CRegNum)
  /-- C.OR (48_c.md R853) -/
  | cOr (rd : CRegNum) (rs2 : CRegNum)
  /-- C.AND (48_c.md R852) -/
  | cAnd (rd : CRegNum) (rs2 : CRegNum)
  /-- C.SUBW (48_c.md R857) -/
  | cSubw (rd : CRegNum) (rs2 : CRegNum)
  /-- C.ADDW (48_c.md R856) -/
  | cAddw (rd : CRegNum) (rs2 : CRegNum)
  /-- C.J (48_c.md R830) -/
  | cJ (off : BitVec 11)
  /-- C.BEQZ (48_c.md R834) -/
  | cBeqz (rs1 : CRegNum) (off : BitVec 8)
  /-- C.BNEZ (48_c.md R835) -/
  | cBnez (rs1 : CRegNum) (off : BitVec 8)
  /-- C.SLLI (48_c.md R846) -/
  | cSlli (rd : RegNum) (shamt : BitVec 6)
  /-- C.FLDSP (48_c.md R813) -/
  | cFldsp (rd : RegNum) (imm : BitVec 6)
  /-- C.LWSP (48_c.md R810) -/
  | cLwsp (rd : RegNum) (imm : BitVec 6)
  /-- C.FLWSP (48_c.md R812) -/
  | cFlwsp (rd : RegNum) (imm : BitVec 6)
  /-- C.LDSP (48_c.md R811) -/
  | cLdsp (rd : RegNum) (imm : BitVec 6)
  /-- C.JR (48_c.md R832) -/
  | cJr (rs1 : RegNum)
  /-- C.MV (48_c.md R850) -/
  | cMv (rd : RegNum) (rs2 : RegNum)
  /-- C.EBREAK (48_c.md R860) -/
  | cEbreak
  /-- C.JALR (48_c.md R833) -/
  | cJalr (rs1 : RegNum)
  /-- C.ADD (48_c.md R851) -/
  | cAdd (rd : RegNum) (rs2 : RegNum)
  /-- C.FSDSP (48_c.md R817) -/
  | cFsdsp (rs2 : RegNum) (imm : BitVec 6)
  /-- C.SWSP (48_c.md R814) -/
  | cSwsp (rs2 : RegNum) (imm : BitVec 6)
  /-- C.FSWSP (48_c.md R816) -/
  | cFswsp (rs2 : RegNum) (imm : BitVec 6)
  /-- C.SDSP (48_c.md R815) -/
  | cSdsp (rs2 : RegNum) (imm : BitVec 6)
  /-- C.NTL.P1 (42_zifencei_hints.md R410) -/
  | cNtlP1
  /-- C.NTL.PALL (42_zifencei_hints.md R410) -/
  | cNtlPall
  /-- C.NTL.S1 (42_zifencei_hints.md R410) -/
  | cNtlS1
  /-- C.NTL.ALL (42_zifencei_hints.md R410) -/
  | cNtlAll
deriving DecidableEq, Repr

end Sys2Proof
end

