-- ==== Sys2Proof/WellFormed.lean ====
section
/-! DEFINITION. Which instructions a configuration defines (00_scope.md R11; 30_encoding.md R220, R230, R231):
`available` by extension and XLEN, `operandsOk` by the operands an encoding may carry. -/

namespace Sys2Proof

/-- An integer register field the configuration has: with `NXREG = 16`, bit 4 is clear (R231, R371). -/
def Cfg.xRegOk (c : Cfg) (r : RegNum) : Bool := !c.embedded || !r.getLsbD 4

/-- A register field that names a floating-point operand: any `f` register, or with Zfinx an integer
register, even for a double on RV32 (49_zfinx_ztso_other.md R908, R912). -/
def Cfg.fpRegOk (c : Cfg) (double : Bool) (r : RegNum) : Bool :=
  !c.ext.zfinx || (c.xRegOk r && !(double && c.xlen == .rv32 && r.getLsbD 0))

/-- A shift amount of SLLI, SRLI, SRAI and their compressed forms: on RV32 bit 5 is clear (R221, R873). -/
def Cfg.shamtOk (c : Cfg) (shamt : BitVec 6) : Bool := c.xlen == .rv64 || !shamt.getLsbD 5

/-- The second operands that make ADD x0, x0 an NTL hint (42_zifencei_hints.md R406 to R409). -/
def isNtlReg (r : RegNum) : Bool := r == 2 || r == 3 || r == 4 || r == 5

/-- The one code point of FENCE that is FENCE.TSO (40_rv32i_base.md R316). -/
def isFenceTso (fm pred succ : BitVec 4) (rs1 rd : RegNum) : Bool :=
  fm == 8 && pred == 3 && succ == 3 && rs1 == 0 && rd == 0

/-- The one code point of FENCE that is PAUSE (42_zifencei_hints.md R415). -/
def isPause (fm pred succ : BitVec 4) (rs1 rd : RegNum) : Bool :=
  fm == 0 && pred == 1 && succ == 0 && rs1 == 0 && rd == 0

/-- Whether the extension set is closed under the dependency rules of 00_scope.md R11 (a) to (i). -/
def Ext.closed (e : Ext) : Bool :=
  (!e.d || e.f) && (!e.f || e.zicsr) && (!e.q || e.d) && (!e.zfh || e.f) && (!e.zfhmin || e.f) &&
  (!e.zam || e.a) && (!e.zdinx || e.zfinx) && (!e.zhinx || e.zfinx) && (!e.zhinxmin || e.zfinx) &&
  !(e.zfinx && e.f) && (!e.zfinx || e.zicsr) && (!e.zicntr || e.zicsr) && (!e.zihpm || e.zicsr)

/-- Whether two regions have no address in common. -/
def Region.apart (r s : Region) : Bool :=
  decide (r.base + r.size ≤ s.base) || decide (s.base + s.size ≤ r.base)

/-- Whether the ranges of a map are disjoint (20_memory.md R110). -/
def regionsDisjoint : List Region → Bool
  | [] => true
  | r :: rest => rest.all (fun s => r.apart s) && regionsDisjoint rest

/-- A configuration the spec admits (00_scope.md R11; 20_memory.md R110). Q requires D "and RV64IFD" (R11 (c)), so XLEN
is then not 32: DEDUCED, entry 38. -/
def Cfg.wf (c : Cfg) : Bool :=
  c.ext.closed && (!c.ext.q || c.xlen == .rv64) && regionsDisjoint c.regions &&
    c.regions.all (fun r => decide (r.base + r.size ≤ 2 ^ c.xlen.bits))

/-- Whether the extension and the XLEN of an instruction's row are in the configuration (R11, R220). -/
def Instr.available (c : Cfg) : Instr → Bool
  | .lui _ _ => true
  | .auipc _ _ => true
  | .jal _ _ => true
  | .jalr _ _ _ => true
  | .beq _ _ _ => true
  | .bne _ _ _ => true
  | .blt _ _ _ => true
  | .bge _ _ _ => true
  | .bltu _ _ _ => true
  | .bgeu _ _ _ => true
  | .lb _ _ _ => true
  | .lh _ _ _ => true
  | .lw _ _ _ => true
  | .lbu _ _ _ => true
  | .lhu _ _ _ => true
  | .sb _ _ _ => true
  | .sh _ _ _ => true
  | .sw _ _ _ => true
  | .addi _ _ _ => true
  | .slti _ _ _ => true
  | .sltiu _ _ _ => true
  | .xori _ _ _ => true
  | .ori _ _ _ => true
  | .andi _ _ _ => true
  | .slli _ _ _ => true
  | .srli _ _ _ => true
  | .srai _ _ _ => true
  | .add _ _ _ => true
  | .sub _ _ _ => true
  | .sll _ _ _ => true
  | .slt _ _ _ => true
  | .sltu _ _ _ => true
  | .xor _ _ _ => true
  | .srl _ _ _ => true
  | .sra _ _ _ => true
  | .or _ _ _ => true
  | .and _ _ _ => true
  | .fence _ _ _ _ _ => true
  | .fenceTso => true
  | .pause => c.ext.zihintpause
  | .ecall => true
  | .ebreak => true
  | .ntlP1 => c.ext.zihintntl
  | .ntlPall => c.ext.zihintntl
  | .ntlS1 => c.ext.zihintntl
  | .ntlAll => c.ext.zihintntl
  | .lwu _ _ _ => c.xlen == .rv64
  | .ld _ _ _ => c.xlen == .rv64
  | .sd _ _ _ => c.xlen == .rv64
  | .addiw _ _ _ => c.xlen == .rv64
  | .slliw _ _ _ => c.xlen == .rv64
  | .srliw _ _ _ => c.xlen == .rv64
  | .sraiw _ _ _ => c.xlen == .rv64
  | .addw _ _ _ => c.xlen == .rv64
  | .subw _ _ _ => c.xlen == .rv64
  | .sllw _ _ _ => c.xlen == .rv64
  | .srlw _ _ _ => c.xlen == .rv64
  | .sraw _ _ _ => c.xlen == .rv64
  | .fenceI _ _ _ => c.ext.zifencei
  | .csrrw _ _ _ => c.ext.zicsr
  | .csrrs _ _ _ => c.ext.zicsr
  | .csrrc _ _ _ => c.ext.zicsr
  | .csrrwi _ _ _ => c.ext.zicsr
  | .csrrsi _ _ _ => c.ext.zicsr
  | .csrrci _ _ _ => c.ext.zicsr
  | .mul _ _ _ => c.ext.m || c.ext.zmmul
  | .mulh _ _ _ => c.ext.m || c.ext.zmmul
  | .mulhsu _ _ _ => c.ext.m || c.ext.zmmul
  | .mulhu _ _ _ => c.ext.m || c.ext.zmmul
  | .div _ _ _ => c.ext.m
  | .divu _ _ _ => c.ext.m
  | .rem _ _ _ => c.ext.m
  | .remu _ _ _ => c.ext.m
  | .mulw _ _ _ => (c.ext.m || c.ext.zmmul) && c.xlen == .rv64
  | .divw _ _ _ => c.ext.m && c.xlen == .rv64
  | .divuw _ _ _ => c.ext.m && c.xlen == .rv64
  | .remw _ _ _ => c.ext.m && c.xlen == .rv64
  | .remuw _ _ _ => c.ext.m && c.xlen == .rv64
  | .lrW _ _ _ _ => c.ext.a
  | .scW _ _ _ _ _ => c.ext.a
  | .amoswapW _ _ _ _ _ => c.ext.a
  | .amoaddW _ _ _ _ _ => c.ext.a
  | .amoxorW _ _ _ _ _ => c.ext.a
  | .amoandW _ _ _ _ _ => c.ext.a
  | .amoorW _ _ _ _ _ => c.ext.a
  | .amominW _ _ _ _ _ => c.ext.a
  | .amomaxW _ _ _ _ _ => c.ext.a
  | .amominuW _ _ _ _ _ => c.ext.a
  | .amomaxuW _ _ _ _ _ => c.ext.a
  | .lrD _ _ _ _ => c.ext.a && c.xlen == .rv64
  | .scD _ _ _ _ _ => c.ext.a && c.xlen == .rv64
  | .amoswapD _ _ _ _ _ => c.ext.a && c.xlen == .rv64
  | .amoaddD _ _ _ _ _ => c.ext.a && c.xlen == .rv64
  | .amoxorD _ _ _ _ _ => c.ext.a && c.xlen == .rv64
  | .amoandD _ _ _ _ _ => c.ext.a && c.xlen == .rv64
  | .amoorD _ _ _ _ _ => c.ext.a && c.xlen == .rv64
  | .amominD _ _ _ _ _ => c.ext.a && c.xlen == .rv64
  | .amomaxD _ _ _ _ _ => c.ext.a && c.xlen == .rv64
  | .amominuD _ _ _ _ _ => c.ext.a && c.xlen == .rv64
  | .amomaxuD _ _ _ _ _ => c.ext.a && c.xlen == .rv64
  | .flw _ _ _ => c.ext.f
  | .fsw _ _ _ => c.ext.f
  | .fmaddS _ _ _ _ _ => c.ext.f || c.ext.zfinx
  | .fmsubS _ _ _ _ _ => c.ext.f || c.ext.zfinx
  | .fnmsubS _ _ _ _ _ => c.ext.f || c.ext.zfinx
  | .fnmaddS _ _ _ _ _ => c.ext.f || c.ext.zfinx
  | .faddS _ _ _ _ => c.ext.f || c.ext.zfinx
  | .fsubS _ _ _ _ => c.ext.f || c.ext.zfinx
  | .fmulS _ _ _ _ => c.ext.f || c.ext.zfinx
  | .fdivS _ _ _ _ => c.ext.f || c.ext.zfinx
  | .fsqrtS _ _ _ => c.ext.f || c.ext.zfinx
  | .fsgnjS _ _ _ => c.ext.f || c.ext.zfinx
  | .fsgnjnS _ _ _ => c.ext.f || c.ext.zfinx
  | .fsgnjxS _ _ _ => c.ext.f || c.ext.zfinx
  | .fminS _ _ _ => c.ext.f || c.ext.zfinx
  | .fmaxS _ _ _ => c.ext.f || c.ext.zfinx
  | .fcvtWS _ _ _ => c.ext.f || c.ext.zfinx
  | .fcvtWuS _ _ _ => c.ext.f || c.ext.zfinx
  | .fcvtLS _ _ _ => (c.ext.f || c.ext.zfinx) && c.xlen == .rv64
  | .fcvtLuS _ _ _ => (c.ext.f || c.ext.zfinx) && c.xlen == .rv64
  | .fcvtSW _ _ _ => c.ext.f || c.ext.zfinx
  | .fcvtSWu _ _ _ => c.ext.f || c.ext.zfinx
  | .fcvtSL _ _ _ => (c.ext.f || c.ext.zfinx) && c.xlen == .rv64
  | .fcvtSLu _ _ _ => (c.ext.f || c.ext.zfinx) && c.xlen == .rv64
  | .feqS _ _ _ => c.ext.f || c.ext.zfinx
  | .fltS _ _ _ => c.ext.f || c.ext.zfinx
  | .fleS _ _ _ => c.ext.f || c.ext.zfinx
  | .fclassS _ _ => c.ext.f || c.ext.zfinx
  | .fmvXW _ _ => c.ext.f
  | .fmvWX _ _ => c.ext.f
  | .fld _ _ _ => c.ext.d
  | .fsd _ _ _ => c.ext.d
  | .fmaddD _ _ _ _ _ => c.ext.d || c.ext.zdinx
  | .fmsubD _ _ _ _ _ => c.ext.d || c.ext.zdinx
  | .fnmsubD _ _ _ _ _ => c.ext.d || c.ext.zdinx
  | .fnmaddD _ _ _ _ _ => c.ext.d || c.ext.zdinx
  | .faddD _ _ _ _ => c.ext.d || c.ext.zdinx
  | .fsubD _ _ _ _ => c.ext.d || c.ext.zdinx
  | .fmulD _ _ _ _ => c.ext.d || c.ext.zdinx
  | .fdivD _ _ _ _ => c.ext.d || c.ext.zdinx
  | .fsqrtD _ _ _ => c.ext.d || c.ext.zdinx
  | .fsgnjD _ _ _ => c.ext.d || c.ext.zdinx
  | .fsgnjnD _ _ _ => c.ext.d || c.ext.zdinx
  | .fsgnjxD _ _ _ => c.ext.d || c.ext.zdinx
  | .fminD _ _ _ => c.ext.d || c.ext.zdinx
  | .fmaxD _ _ _ => c.ext.d || c.ext.zdinx
  | .fcvtWD _ _ _ => c.ext.d || c.ext.zdinx
  | .fcvtWuD _ _ _ => c.ext.d || c.ext.zdinx
  | .fcvtLD _ _ _ => (c.ext.d || c.ext.zdinx) && c.xlen == .rv64
  | .fcvtLuD _ _ _ => (c.ext.d || c.ext.zdinx) && c.xlen == .rv64
  | .fcvtDW _ _ _ => c.ext.d || c.ext.zdinx
  | .fcvtDWu _ _ _ => c.ext.d || c.ext.zdinx
  | .fcvtDL _ _ _ => (c.ext.d || c.ext.zdinx) && c.xlen == .rv64
  | .fcvtDLu _ _ _ => (c.ext.d || c.ext.zdinx) && c.xlen == .rv64
  | .feqD _ _ _ => c.ext.d || c.ext.zdinx
  | .fltD _ _ _ => c.ext.d || c.ext.zdinx
  | .fleD _ _ _ => c.ext.d || c.ext.zdinx
  | .fclassD _ _ => c.ext.d || c.ext.zdinx
  | .fcvtSD _ _ _ => c.ext.d || c.ext.zdinx
  | .fcvtDS _ _ _ => c.ext.d || c.ext.zdinx
  | .fmvXD _ _ => c.ext.d && c.xlen == .rv64
  | .fmvDX _ _ => c.ext.d && c.xlen == .rv64
  | .flq _ _ _ => c.ext.q
  | .fsq _ _ _ => c.ext.q
  | .fmaddQ _ _ _ _ _ => c.ext.q
  | .fmsubQ _ _ _ _ _ => c.ext.q
  | .fnmsubQ _ _ _ _ _ => c.ext.q
  | .fnmaddQ _ _ _ _ _ => c.ext.q
  | .faddQ _ _ _ _ => c.ext.q
  | .fsubQ _ _ _ _ => c.ext.q
  | .fmulQ _ _ _ _ => c.ext.q
  | .fdivQ _ _ _ _ => c.ext.q
  | .fsqrtQ _ _ _ => c.ext.q
  | .fsgnjQ _ _ _ => c.ext.q
  | .fsgnjnQ _ _ _ => c.ext.q
  | .fsgnjxQ _ _ _ => c.ext.q
  | .fminQ _ _ _ => c.ext.q
  | .fmaxQ _ _ _ => c.ext.q
  | .fcvtWQ _ _ _ => c.ext.q
  | .fcvtWuQ _ _ _ => c.ext.q
  | .fcvtLQ _ _ _ => c.ext.q && c.xlen == .rv64
  | .fcvtLuQ _ _ _ => c.ext.q && c.xlen == .rv64
  | .fcvtQW _ _ _ => c.ext.q
  | .fcvtQWu _ _ _ => c.ext.q
  | .fcvtQL _ _ _ => c.ext.q && c.xlen == .rv64
  | .fcvtQLu _ _ _ => c.ext.q && c.xlen == .rv64
  | .feqQ _ _ _ => c.ext.q
  | .fltQ _ _ _ => c.ext.q
  | .fleQ _ _ _ => c.ext.q
  | .fclassQ _ _ => c.ext.q
  | .fcvtSQ _ _ _ => c.ext.q
  | .fcvtQS _ _ _ => c.ext.q
  | .fcvtDQ _ _ _ => c.ext.q
  | .fcvtQD _ _ _ => c.ext.q
  | .flh _ _ _ => c.ext.zfh || c.ext.zfhmin
  | .fsh _ _ _ => c.ext.zfh || c.ext.zfhmin
  | .fmaddH _ _ _ _ _ => c.ext.zfh || c.ext.zhinx
  | .fmsubH _ _ _ _ _ => c.ext.zfh || c.ext.zhinx
  | .fnmsubH _ _ _ _ _ => c.ext.zfh || c.ext.zhinx
  | .fnmaddH _ _ _ _ _ => c.ext.zfh || c.ext.zhinx
  | .faddH _ _ _ _ => c.ext.zfh || c.ext.zhinx
  | .fsubH _ _ _ _ => c.ext.zfh || c.ext.zhinx
  | .fmulH _ _ _ _ => c.ext.zfh || c.ext.zhinx
  | .fdivH _ _ _ _ => c.ext.zfh || c.ext.zhinx
  | .fsqrtH _ _ _ => c.ext.zfh || c.ext.zhinx
  | .fsgnjH _ _ _ => c.ext.zfh || c.ext.zhinx
  | .fsgnjnH _ _ _ => c.ext.zfh || c.ext.zhinx
  | .fsgnjxH _ _ _ => c.ext.zfh || c.ext.zhinx
  | .fminH _ _ _ => c.ext.zfh || c.ext.zhinx
  | .fmaxH _ _ _ => c.ext.zfh || c.ext.zhinx
  | .fcvtWH _ _ _ => c.ext.zfh || c.ext.zhinx
  | .fcvtWuH _ _ _ => c.ext.zfh || c.ext.zhinx
  | .fcvtLH _ _ _ => (c.ext.zfh || c.ext.zhinx) && c.xlen == .rv64
  | .fcvtLuH _ _ _ => (c.ext.zfh || c.ext.zhinx) && c.xlen == .rv64
  | .fcvtHW _ _ _ => c.ext.zfh || c.ext.zhinx
  | .fcvtHWu _ _ _ => c.ext.zfh || c.ext.zhinx
  | .fcvtHL _ _ _ => (c.ext.zfh || c.ext.zhinx) && c.xlen == .rv64
  | .fcvtHLu _ _ _ => (c.ext.zfh || c.ext.zhinx) && c.xlen == .rv64
  | .feqH _ _ _ => c.ext.zfh || c.ext.zhinx
  | .fltH _ _ _ => c.ext.zfh || c.ext.zhinx
  | .fleH _ _ _ => c.ext.zfh || c.ext.zhinx
  | .fclassH _ _ => c.ext.zfh || c.ext.zhinx
  | .fcvtSH _ _ _ => c.ext.zfh || c.ext.zfhmin || c.ext.zhinx || c.ext.zhinxmin
  | .fcvtHS _ _ _ => c.ext.zfh || c.ext.zfhmin || c.ext.zhinx || c.ext.zhinxmin
  | .fcvtDH _ _ _ => (c.ext.zfh && c.ext.d) || (c.ext.zfhmin && c.ext.d) || (c.ext.zhinx && c.ext.zdinx) || (c.ext.zhinxmin && c.ext.zdinx)
  | .fcvtHD _ _ _ => (c.ext.zfh && c.ext.d) || (c.ext.zfhmin && c.ext.d) || (c.ext.zhinx && c.ext.zdinx) || (c.ext.zhinxmin && c.ext.zdinx)
  | .fcvtQH _ _ _ => (c.ext.zfh && c.ext.q) || (c.ext.zfhmin && c.ext.q)
  | .fcvtHQ _ _ _ => (c.ext.zfh && c.ext.q) || (c.ext.zfhmin && c.ext.q)
  | .fmvXH _ _ => c.ext.zfh || c.ext.zfhmin
  | .fmvHX _ _ => c.ext.zfh || c.ext.zfhmin
  | .cAddi4spn _ _ => c.ext.c
  | .cFld _ _ _ => c.ext.c && c.ext.d
  | .cLw _ _ _ => c.ext.c
  | .cFlw _ _ _ => c.ext.c && c.ext.f && c.xlen == .rv32
  | .cLd _ _ _ => c.ext.c && c.xlen == .rv64
  | .cFsd _ _ _ => c.ext.c && c.ext.d
  | .cSw _ _ _ => c.ext.c
  | .cFsw _ _ _ => c.ext.c && c.ext.f && c.xlen == .rv32
  | .cSd _ _ _ => c.ext.c && c.xlen == .rv64
  | .cNop _ => c.ext.c
  | .cAddi _ _ => c.ext.c
  | .cJal _ => c.ext.c && c.xlen == .rv32
  | .cAddiw _ _ => c.ext.c && c.xlen == .rv64
  | .cLi _ _ => c.ext.c
  | .cAddi16sp _ => c.ext.c
  | .cLui _ _ => c.ext.c
  | .cSrli _ _ => c.ext.c
  | .cSrai _ _ => c.ext.c
  | .cAndi _ _ => c.ext.c
  | .cSub _ _ => c.ext.c
  | .cXor _ _ => c.ext.c
  | .cOr _ _ => c.ext.c
  | .cAnd _ _ => c.ext.c
  | .cSubw _ _ => c.ext.c && c.xlen == .rv64
  | .cAddw _ _ => c.ext.c && c.xlen == .rv64
  | .cJ _ => c.ext.c
  | .cBeqz _ _ => c.ext.c
  | .cBnez _ _ => c.ext.c
  | .cSlli _ _ => c.ext.c
  | .cFldsp _ _ => c.ext.c && c.ext.d
  | .cLwsp _ _ => c.ext.c
  | .cFlwsp _ _ => c.ext.c && c.ext.f && c.xlen == .rv32
  | .cLdsp _ _ => c.ext.c && c.xlen == .rv64
  | .cJr _ => c.ext.c
  | .cMv _ _ => c.ext.c
  | .cEbreak => c.ext.c
  | .cJalr _ => c.ext.c
  | .cAdd _ _ => c.ext.c
  | .cFsdsp _ _ => c.ext.c && c.ext.d
  | .cSwsp _ _ => c.ext.c
  | .cFswsp _ _ => c.ext.c && c.ext.f && c.xlen == .rv32
  | .cSdsp _ _ => c.ext.c && c.xlen == .rv64
  | .cNtlP1 => c.ext.zihintntl && c.ext.c
  | .cNtlPall => c.ext.zihintntl && c.ext.c
  | .cNtlS1 => c.ext.zihintntl && c.ext.c
  | .cNtlAll => c.ext.zihintntl && c.ext.c

/-- Whether the operands are ones the row's encoding may carry: register fields that exist, no reserved
value, and no code point that belongs to a more specific row (R220, R221, R231; 48_c.md R808). -/
def Instr.operandsOk (c : Cfg) : Instr → Bool
  | .lui rd _ => c.xRegOk rd
  | .auipc rd _ => c.xRegOk rd
  | .jal rd _ => c.xRegOk rd
  | .jalr rd rs1 _ => c.xRegOk rd && c.xRegOk rs1
  | .beq rs1 rs2 _ => c.xRegOk rs1 && c.xRegOk rs2
  | .bne rs1 rs2 _ => c.xRegOk rs1 && c.xRegOk rs2
  | .blt rs1 rs2 _ => c.xRegOk rs1 && c.xRegOk rs2
  | .bge rs1 rs2 _ => c.xRegOk rs1 && c.xRegOk rs2
  | .bltu rs1 rs2 _ => c.xRegOk rs1 && c.xRegOk rs2
  | .bgeu rs1 rs2 _ => c.xRegOk rs1 && c.xRegOk rs2
  | .lb rd rs1 _ => c.xRegOk rd && c.xRegOk rs1
  | .lh rd rs1 _ => c.xRegOk rd && c.xRegOk rs1
  | .lw rd rs1 _ => c.xRegOk rd && c.xRegOk rs1
  | .lbu rd rs1 _ => c.xRegOk rd && c.xRegOk rs1
  | .lhu rd rs1 _ => c.xRegOk rd && c.xRegOk rs1
  | .sb rs2 rs1 _ => c.xRegOk rs2 && c.xRegOk rs1
  | .sh rs2 rs1 _ => c.xRegOk rs2 && c.xRegOk rs1
  | .sw rs2 rs1 _ => c.xRegOk rs2 && c.xRegOk rs1
  | .addi rd rs1 _ => c.xRegOk rd && c.xRegOk rs1
  | .slti rd rs1 _ => c.xRegOk rd && c.xRegOk rs1
  | .sltiu rd rs1 _ => c.xRegOk rd && c.xRegOk rs1
  | .xori rd rs1 _ => c.xRegOk rd && c.xRegOk rs1
  | .ori rd rs1 _ => c.xRegOk rd && c.xRegOk rs1
  | .andi rd rs1 _ => c.xRegOk rd && c.xRegOk rs1
  | .slli rd rs1 shamt => c.xRegOk rd && c.xRegOk rs1 && c.shamtOk shamt
  | .srli rd rs1 shamt => c.xRegOk rd && c.xRegOk rs1 && c.shamtOk shamt
  | .srai rd rs1 shamt => c.xRegOk rd && c.xRegOk rs1 && c.shamtOk shamt
  | .add rd rs1 rs2 => c.xRegOk rd && c.xRegOk rs1 && c.xRegOk rs2 && !(c.ext.zihintntl && rd == 0 && rs1 == 0 && isNtlReg rs2)
  | .sub rd rs1 rs2 => c.xRegOk rd && c.xRegOk rs1 && c.xRegOk rs2
  | .sll rd rs1 rs2 => c.xRegOk rd && c.xRegOk rs1 && c.xRegOk rs2
  | .slt rd rs1 rs2 => c.xRegOk rd && c.xRegOk rs1 && c.xRegOk rs2
  | .sltu rd rs1 rs2 => c.xRegOk rd && c.xRegOk rs1 && c.xRegOk rs2
  | .xor rd rs1 rs2 => c.xRegOk rd && c.xRegOk rs1 && c.xRegOk rs2
  | .srl rd rs1 rs2 => c.xRegOk rd && c.xRegOk rs1 && c.xRegOk rs2
  | .sra rd rs1 rs2 => c.xRegOk rd && c.xRegOk rs1 && c.xRegOk rs2
  | .or rd rs1 rs2 => c.xRegOk rd && c.xRegOk rs1 && c.xRegOk rs2
  | .and rd rs1 rs2 => c.xRegOk rd && c.xRegOk rs1 && c.xRegOk rs2
  | .fence fm pred succ rs1 rd => !isFenceTso fm pred succ rs1 rd && !(c.ext.zihintpause && isPause fm pred succ rs1 rd)
  | .fenceTso => true
  | .pause => true
  | .ecall => true
  | .ebreak => true
  | .ntlP1 => true
  | .ntlPall => true
  | .ntlS1 => true
  | .ntlAll => true
  | .lwu rd rs1 _ => c.xRegOk rd && c.xRegOk rs1
  | .ld rd rs1 _ => c.xRegOk rd && c.xRegOk rs1
  | .sd rs2 rs1 _ => c.xRegOk rs2 && c.xRegOk rs1
  | .addiw rd rs1 _ => c.xRegOk rd && c.xRegOk rs1
  | .slliw rd rs1 _ => c.xRegOk rd && c.xRegOk rs1
  | .srliw rd rs1 _ => c.xRegOk rd && c.xRegOk rs1
  | .sraiw rd rs1 _ => c.xRegOk rd && c.xRegOk rs1
  | .addw rd rs1 rs2 => c.xRegOk rd && c.xRegOk rs1 && c.xRegOk rs2
  | .subw rd rs1 rs2 => c.xRegOk rd && c.xRegOk rs1 && c.xRegOk rs2
  | .sllw rd rs1 rs2 => c.xRegOk rd && c.xRegOk rs1 && c.xRegOk rs2
  | .srlw rd rs1 rs2 => c.xRegOk rd && c.xRegOk rs1 && c.xRegOk rs2
  | .sraw rd rs1 rs2 => c.xRegOk rd && c.xRegOk rs1 && c.xRegOk rs2
  | .fenceI _ _ _ => true
  | .csrrw rd _ rs1 => c.xRegOk rd && c.xRegOk rs1
  | .csrrs rd _ rs1 => c.xRegOk rd && c.xRegOk rs1
  | .csrrc rd _ rs1 => c.xRegOk rd && c.xRegOk rs1
  | .csrrwi rd _ _ => c.xRegOk rd
  | .csrrsi rd _ _ => c.xRegOk rd
  | .csrrci rd _ _ => c.xRegOk rd
  | .mul rd rs1 rs2 => c.xRegOk rd && c.xRegOk rs1 && c.xRegOk rs2
  | .mulh rd rs1 rs2 => c.xRegOk rd && c.xRegOk rs1 && c.xRegOk rs2
  | .mulhsu rd rs1 rs2 => c.xRegOk rd && c.xRegOk rs1 && c.xRegOk rs2
  | .mulhu rd rs1 rs2 => c.xRegOk rd && c.xRegOk rs1 && c.xRegOk rs2
  | .div rd rs1 rs2 => c.xRegOk rd && c.xRegOk rs1 && c.xRegOk rs2
  | .divu rd rs1 rs2 => c.xRegOk rd && c.xRegOk rs1 && c.xRegOk rs2
  | .rem rd rs1 rs2 => c.xRegOk rd && c.xRegOk rs1 && c.xRegOk rs2
  | .remu rd rs1 rs2 => c.xRegOk rd && c.xRegOk rs1 && c.xRegOk rs2
  | .mulw rd rs1 rs2 => c.xRegOk rd && c.xRegOk rs1 && c.xRegOk rs2
  | .divw rd rs1 rs2 => c.xRegOk rd && c.xRegOk rs1 && c.xRegOk rs2
  | .divuw rd rs1 rs2 => c.xRegOk rd && c.xRegOk rs1 && c.xRegOk rs2
  | .remw rd rs1 rs2 => c.xRegOk rd && c.xRegOk rs1 && c.xRegOk rs2
  | .remuw rd rs1 rs2 => c.xRegOk rd && c.xRegOk rs1 && c.xRegOk rs2
  | .lrW rd rs1 _ _ => c.xRegOk rd && c.xRegOk rs1
  | .scW rd rs1 rs2 _ _ => c.xRegOk rd && c.xRegOk rs1 && c.xRegOk rs2
  | .amoswapW rd rs1 rs2 _ _ => c.xRegOk rd && c.xRegOk rs1 && c.xRegOk rs2
  | .amoaddW rd rs1 rs2 _ _ => c.xRegOk rd && c.xRegOk rs1 && c.xRegOk rs2
  | .amoxorW rd rs1 rs2 _ _ => c.xRegOk rd && c.xRegOk rs1 && c.xRegOk rs2
  | .amoandW rd rs1 rs2 _ _ => c.xRegOk rd && c.xRegOk rs1 && c.xRegOk rs2
  | .amoorW rd rs1 rs2 _ _ => c.xRegOk rd && c.xRegOk rs1 && c.xRegOk rs2
  | .amominW rd rs1 rs2 _ _ => c.xRegOk rd && c.xRegOk rs1 && c.xRegOk rs2
  | .amomaxW rd rs1 rs2 _ _ => c.xRegOk rd && c.xRegOk rs1 && c.xRegOk rs2
  | .amominuW rd rs1 rs2 _ _ => c.xRegOk rd && c.xRegOk rs1 && c.xRegOk rs2
  | .amomaxuW rd rs1 rs2 _ _ => c.xRegOk rd && c.xRegOk rs1 && c.xRegOk rs2
  | .lrD rd rs1 _ _ => c.xRegOk rd && c.xRegOk rs1
  | .scD rd rs1 rs2 _ _ => c.xRegOk rd && c.xRegOk rs1 && c.xRegOk rs2
  | .amoswapD rd rs1 rs2 _ _ => c.xRegOk rd && c.xRegOk rs1 && c.xRegOk rs2
  | .amoaddD rd rs1 rs2 _ _ => c.xRegOk rd && c.xRegOk rs1 && c.xRegOk rs2
  | .amoxorD rd rs1 rs2 _ _ => c.xRegOk rd && c.xRegOk rs1 && c.xRegOk rs2
  | .amoandD rd rs1 rs2 _ _ => c.xRegOk rd && c.xRegOk rs1 && c.xRegOk rs2
  | .amoorD rd rs1 rs2 _ _ => c.xRegOk rd && c.xRegOk rs1 && c.xRegOk rs2
  | .amominD rd rs1 rs2 _ _ => c.xRegOk rd && c.xRegOk rs1 && c.xRegOk rs2
  | .amomaxD rd rs1 rs2 _ _ => c.xRegOk rd && c.xRegOk rs1 && c.xRegOk rs2
  | .amominuD rd rs1 rs2 _ _ => c.xRegOk rd && c.xRegOk rs1 && c.xRegOk rs2
  | .amomaxuD rd rs1 rs2 _ _ => c.xRegOk rd && c.xRegOk rs1 && c.xRegOk rs2
  | .flw _ rs1 _ => c.xRegOk rs1
  | .fsw _ rs1 _ => c.xRegOk rs1
  | .fmaddS rd rs1 rs2 rs3 _ => c.fpRegOk false rd && c.fpRegOk false rs1 && c.fpRegOk false rs2 && c.fpRegOk false rs3
  | .fmsubS rd rs1 rs2 rs3 _ => c.fpRegOk false rd && c.fpRegOk false rs1 && c.fpRegOk false rs2 && c.fpRegOk false rs3
  | .fnmsubS rd rs1 rs2 rs3 _ => c.fpRegOk false rd && c.fpRegOk false rs1 && c.fpRegOk false rs2 && c.fpRegOk false rs3
  | .fnmaddS rd rs1 rs2 rs3 _ => c.fpRegOk false rd && c.fpRegOk false rs1 && c.fpRegOk false rs2 && c.fpRegOk false rs3
  | .faddS rd rs1 rs2 _ => c.fpRegOk false rd && c.fpRegOk false rs1 && c.fpRegOk false rs2
  | .fsubS rd rs1 rs2 _ => c.fpRegOk false rd && c.fpRegOk false rs1 && c.fpRegOk false rs2
  | .fmulS rd rs1 rs2 _ => c.fpRegOk false rd && c.fpRegOk false rs1 && c.fpRegOk false rs2
  | .fdivS rd rs1 rs2 _ => c.fpRegOk false rd && c.fpRegOk false rs1 && c.fpRegOk false rs2
  | .fsqrtS rd rs1 _ => c.fpRegOk false rd && c.fpRegOk false rs1
  | .fsgnjS rd rs1 rs2 => c.fpRegOk false rd && c.fpRegOk false rs1 && c.fpRegOk false rs2
  | .fsgnjnS rd rs1 rs2 => c.fpRegOk false rd && c.fpRegOk false rs1 && c.fpRegOk false rs2
  | .fsgnjxS rd rs1 rs2 => c.fpRegOk false rd && c.fpRegOk false rs1 && c.fpRegOk false rs2
  | .fminS rd rs1 rs2 => c.fpRegOk false rd && c.fpRegOk false rs1 && c.fpRegOk false rs2
  | .fmaxS rd rs1 rs2 => c.fpRegOk false rd && c.fpRegOk false rs1 && c.fpRegOk false rs2
  | .fcvtWS rd rs1 _ => c.xRegOk rd && c.fpRegOk false rs1
  | .fcvtWuS rd rs1 _ => c.xRegOk rd && c.fpRegOk false rs1
  | .fcvtLS rd rs1 _ => c.xRegOk rd && c.fpRegOk false rs1
  | .fcvtLuS rd rs1 _ => c.xRegOk rd && c.fpRegOk false rs1
  | .fcvtSW rd rs1 _ => c.fpRegOk false rd && c.xRegOk rs1
  | .fcvtSWu rd rs1 _ => c.fpRegOk false rd && c.xRegOk rs1
  | .fcvtSL rd rs1 _ => c.fpRegOk false rd && c.xRegOk rs1
  | .fcvtSLu rd rs1 _ => c.fpRegOk false rd && c.xRegOk rs1
  | .feqS rd rs1 rs2 => c.xRegOk rd && c.fpRegOk false rs1 && c.fpRegOk false rs2
  | .fltS rd rs1 rs2 => c.xRegOk rd && c.fpRegOk false rs1 && c.fpRegOk false rs2
  | .fleS rd rs1 rs2 => c.xRegOk rd && c.fpRegOk false rs1 && c.fpRegOk false rs2
  | .fclassS rd rs1 => c.xRegOk rd && c.fpRegOk false rs1
  | .fmvXW rd _ => c.xRegOk rd
  | .fmvWX _ rs1 => c.xRegOk rs1
  | .fld _ rs1 _ => c.xRegOk rs1
  | .fsd _ rs1 _ => c.xRegOk rs1
  | .fmaddD rd rs1 rs2 rs3 _ => c.fpRegOk true rd && c.fpRegOk true rs1 && c.fpRegOk true rs2 && c.fpRegOk true rs3
  | .fmsubD rd rs1 rs2 rs3 _ => c.fpRegOk true rd && c.fpRegOk true rs1 && c.fpRegOk true rs2 && c.fpRegOk true rs3
  | .fnmsubD rd rs1 rs2 rs3 _ => c.fpRegOk true rd && c.fpRegOk true rs1 && c.fpRegOk true rs2 && c.fpRegOk true rs3
  | .fnmaddD rd rs1 rs2 rs3 _ => c.fpRegOk true rd && c.fpRegOk true rs1 && c.fpRegOk true rs2 && c.fpRegOk true rs3
  | .faddD rd rs1 rs2 _ => c.fpRegOk true rd && c.fpRegOk true rs1 && c.fpRegOk true rs2
  | .fsubD rd rs1 rs2 _ => c.fpRegOk true rd && c.fpRegOk true rs1 && c.fpRegOk true rs2
  | .fmulD rd rs1 rs2 _ => c.fpRegOk true rd && c.fpRegOk true rs1 && c.fpRegOk true rs2
  | .fdivD rd rs1 rs2 _ => c.fpRegOk true rd && c.fpRegOk true rs1 && c.fpRegOk true rs2
  | .fsqrtD rd rs1 _ => c.fpRegOk true rd && c.fpRegOk true rs1
  | .fsgnjD rd rs1 rs2 => c.fpRegOk true rd && c.fpRegOk true rs1 && c.fpRegOk true rs2
  | .fsgnjnD rd rs1 rs2 => c.fpRegOk true rd && c.fpRegOk true rs1 && c.fpRegOk true rs2
  | .fsgnjxD rd rs1 rs2 => c.fpRegOk true rd && c.fpRegOk true rs1 && c.fpRegOk true rs2
  | .fminD rd rs1 rs2 => c.fpRegOk true rd && c.fpRegOk true rs1 && c.fpRegOk true rs2
  | .fmaxD rd rs1 rs2 => c.fpRegOk true rd && c.fpRegOk true rs1 && c.fpRegOk true rs2
  | .fcvtWD rd rs1 _ => c.xRegOk rd && c.fpRegOk true rs1
  | .fcvtWuD rd rs1 _ => c.xRegOk rd && c.fpRegOk true rs1
  | .fcvtLD rd rs1 _ => c.xRegOk rd && c.fpRegOk true rs1
  | .fcvtLuD rd rs1 _ => c.xRegOk rd && c.fpRegOk true rs1
  | .fcvtDW rd rs1 _ => c.fpRegOk true rd && c.xRegOk rs1
  | .fcvtDWu rd rs1 _ => c.fpRegOk true rd && c.xRegOk rs1
  | .fcvtDL rd rs1 _ => c.fpRegOk true rd && c.xRegOk rs1
  | .fcvtDLu rd rs1 _ => c.fpRegOk true rd && c.xRegOk rs1
  | .feqD rd rs1 rs2 => c.xRegOk rd && c.fpRegOk true rs1 && c.fpRegOk true rs2
  | .fltD rd rs1 rs2 => c.xRegOk rd && c.fpRegOk true rs1 && c.fpRegOk true rs2
  | .fleD rd rs1 rs2 => c.xRegOk rd && c.fpRegOk true rs1 && c.fpRegOk true rs2
  | .fclassD rd rs1 => c.xRegOk rd && c.fpRegOk true rs1
  | .fcvtSD rd rs1 _ => c.fpRegOk false rd && c.fpRegOk true rs1
  | .fcvtDS rd rs1 _ => c.fpRegOk true rd && c.fpRegOk false rs1
  | .fmvXD rd _ => c.xRegOk rd
  | .fmvDX _ rs1 => c.xRegOk rs1
  | .flq _ rs1 _ => c.xRegOk rs1
  | .fsq _ rs1 _ => c.xRegOk rs1
  | .fmaddQ rd rs1 rs2 rs3 _ => c.fpRegOk false rd && c.fpRegOk false rs1 && c.fpRegOk false rs2 && c.fpRegOk false rs3
  | .fmsubQ rd rs1 rs2 rs3 _ => c.fpRegOk false rd && c.fpRegOk false rs1 && c.fpRegOk false rs2 && c.fpRegOk false rs3
  | .fnmsubQ rd rs1 rs2 rs3 _ => c.fpRegOk false rd && c.fpRegOk false rs1 && c.fpRegOk false rs2 && c.fpRegOk false rs3
  | .fnmaddQ rd rs1 rs2 rs3 _ => c.fpRegOk false rd && c.fpRegOk false rs1 && c.fpRegOk false rs2 && c.fpRegOk false rs3
  | .faddQ rd rs1 rs2 _ => c.fpRegOk false rd && c.fpRegOk false rs1 && c.fpRegOk false rs2
  | .fsubQ rd rs1 rs2 _ => c.fpRegOk false rd && c.fpRegOk false rs1 && c.fpRegOk false rs2
  | .fmulQ rd rs1 rs2 _ => c.fpRegOk false rd && c.fpRegOk false rs1 && c.fpRegOk false rs2
  | .fdivQ rd rs1 rs2 _ => c.fpRegOk false rd && c.fpRegOk false rs1 && c.fpRegOk false rs2
  | .fsqrtQ rd rs1 _ => c.fpRegOk false rd && c.fpRegOk false rs1
  | .fsgnjQ rd rs1 rs2 => c.fpRegOk false rd && c.fpRegOk false rs1 && c.fpRegOk false rs2
  | .fsgnjnQ rd rs1 rs2 => c.fpRegOk false rd && c.fpRegOk false rs1 && c.fpRegOk false rs2
  | .fsgnjxQ rd rs1 rs2 => c.fpRegOk false rd && c.fpRegOk false rs1 && c.fpRegOk false rs2
  | .fminQ rd rs1 rs2 => c.fpRegOk false rd && c.fpRegOk false rs1 && c.fpRegOk false rs2
  | .fmaxQ rd rs1 rs2 => c.fpRegOk false rd && c.fpRegOk false rs1 && c.fpRegOk false rs2
  | .fcvtWQ rd rs1 _ => c.xRegOk rd && c.fpRegOk false rs1
  | .fcvtWuQ rd rs1 _ => c.xRegOk rd && c.fpRegOk false rs1
  | .fcvtLQ rd rs1 _ => c.xRegOk rd && c.fpRegOk false rs1
  | .fcvtLuQ rd rs1 _ => c.xRegOk rd && c.fpRegOk false rs1
  | .fcvtQW rd rs1 _ => c.fpRegOk false rd && c.xRegOk rs1
  | .fcvtQWu rd rs1 _ => c.fpRegOk false rd && c.xRegOk rs1
  | .fcvtQL rd rs1 _ => c.fpRegOk false rd && c.xRegOk rs1
  | .fcvtQLu rd rs1 _ => c.fpRegOk false rd && c.xRegOk rs1
  | .feqQ rd rs1 rs2 => c.xRegOk rd && c.fpRegOk false rs1 && c.fpRegOk false rs2
  | .fltQ rd rs1 rs2 => c.xRegOk rd && c.fpRegOk false rs1 && c.fpRegOk false rs2
  | .fleQ rd rs1 rs2 => c.xRegOk rd && c.fpRegOk false rs1 && c.fpRegOk false rs2
  | .fclassQ rd rs1 => c.xRegOk rd && c.fpRegOk false rs1
  | .fcvtSQ rd rs1 _ => c.fpRegOk false rd && c.fpRegOk false rs1
  | .fcvtQS rd rs1 _ => c.fpRegOk false rd && c.fpRegOk false rs1
  | .fcvtDQ rd rs1 _ => c.fpRegOk true rd && c.fpRegOk false rs1
  | .fcvtQD rd rs1 _ => c.fpRegOk false rd && c.fpRegOk true rs1
  | .flh _ rs1 _ => c.xRegOk rs1
  | .fsh _ rs1 _ => c.xRegOk rs1
  | .fmaddH rd rs1 rs2 rs3 _ => c.fpRegOk false rd && c.fpRegOk false rs1 && c.fpRegOk false rs2 && c.fpRegOk false rs3
  | .fmsubH rd rs1 rs2 rs3 _ => c.fpRegOk false rd && c.fpRegOk false rs1 && c.fpRegOk false rs2 && c.fpRegOk false rs3
  | .fnmsubH rd rs1 rs2 rs3 _ => c.fpRegOk false rd && c.fpRegOk false rs1 && c.fpRegOk false rs2 && c.fpRegOk false rs3
  | .fnmaddH rd rs1 rs2 rs3 _ => c.fpRegOk false rd && c.fpRegOk false rs1 && c.fpRegOk false rs2 && c.fpRegOk false rs3
  | .faddH rd rs1 rs2 _ => c.fpRegOk false rd && c.fpRegOk false rs1 && c.fpRegOk false rs2
  | .fsubH rd rs1 rs2 _ => c.fpRegOk false rd && c.fpRegOk false rs1 && c.fpRegOk false rs2
  | .fmulH rd rs1 rs2 _ => c.fpRegOk false rd && c.fpRegOk false rs1 && c.fpRegOk false rs2
  | .fdivH rd rs1 rs2 _ => c.fpRegOk false rd && c.fpRegOk false rs1 && c.fpRegOk false rs2
  | .fsqrtH rd rs1 _ => c.fpRegOk false rd && c.fpRegOk false rs1
  | .fsgnjH rd rs1 rs2 => c.fpRegOk false rd && c.fpRegOk false rs1 && c.fpRegOk false rs2
  | .fsgnjnH rd rs1 rs2 => c.fpRegOk false rd && c.fpRegOk false rs1 && c.fpRegOk false rs2
  | .fsgnjxH rd rs1 rs2 => c.fpRegOk false rd && c.fpRegOk false rs1 && c.fpRegOk false rs2
  | .fminH rd rs1 rs2 => c.fpRegOk false rd && c.fpRegOk false rs1 && c.fpRegOk false rs2
  | .fmaxH rd rs1 rs2 => c.fpRegOk false rd && c.fpRegOk false rs1 && c.fpRegOk false rs2
  | .fcvtWH rd rs1 _ => c.xRegOk rd && c.fpRegOk false rs1
  | .fcvtWuH rd rs1 _ => c.xRegOk rd && c.fpRegOk false rs1
  | .fcvtLH rd rs1 _ => c.xRegOk rd && c.fpRegOk false rs1
  | .fcvtLuH rd rs1 _ => c.xRegOk rd && c.fpRegOk false rs1
  | .fcvtHW rd rs1 _ => c.fpRegOk false rd && c.xRegOk rs1
  | .fcvtHWu rd rs1 _ => c.fpRegOk false rd && c.xRegOk rs1
  | .fcvtHL rd rs1 _ => c.fpRegOk false rd && c.xRegOk rs1
  | .fcvtHLu rd rs1 _ => c.fpRegOk false rd && c.xRegOk rs1
  | .feqH rd rs1 rs2 => c.xRegOk rd && c.fpRegOk false rs1 && c.fpRegOk false rs2
  | .fltH rd rs1 rs2 => c.xRegOk rd && c.fpRegOk false rs1 && c.fpRegOk false rs2
  | .fleH rd rs1 rs2 => c.xRegOk rd && c.fpRegOk false rs1 && c.fpRegOk false rs2
  | .fclassH rd rs1 => c.xRegOk rd && c.fpRegOk false rs1
  | .fcvtSH rd rs1 _ => c.fpRegOk false rd && c.fpRegOk false rs1
  | .fcvtHS rd rs1 _ => c.fpRegOk false rd && c.fpRegOk false rs1
  | .fcvtDH rd rs1 _ => c.fpRegOk true rd && c.fpRegOk false rs1
  | .fcvtHD rd rs1 _ => c.fpRegOk false rd && c.fpRegOk true rs1
  | .fcvtQH rd rs1 _ => c.fpRegOk false rd && c.fpRegOk false rs1
  | .fcvtHQ rd rs1 _ => c.fpRegOk false rd && c.fpRegOk false rs1
  | .fmvXH rd _ => c.xRegOk rd
  | .fmvHX _ rs1 => c.xRegOk rs1
  | .cAddi4spn _ imm => imm != 0
  | .cFld _ _ _ => true
  | .cLw _ _ _ => true
  | .cFlw _ _ _ => true
  | .cLd _ _ _ => true
  | .cFsd _ _ _ => true
  | .cSw _ _ _ => true
  | .cFsw _ _ _ => true
  | .cSd _ _ _ => true
  | .cNop _ => true
  | .cAddi rd _ => c.xRegOk rd && rd != 0
  | .cJal _ => true
  | .cAddiw rd _ => c.xRegOk rd && rd != 0
  | .cLi rd _ => c.xRegOk rd
  | .cAddi16sp imm => imm != 0
  | .cLui rd imm => c.xRegOk rd && rd != 2 && imm != 0
  | .cSrli _ shamt => c.shamtOk shamt
  | .cSrai _ shamt => c.shamtOk shamt
  | .cAndi _ _ => true
  | .cSub _ _ => true
  | .cXor _ _ => true
  | .cOr _ _ => true
  | .cAnd _ _ => true
  | .cSubw _ _ => true
  | .cAddw _ _ => true
  | .cJ _ => true
  | .cBeqz _ _ => true
  | .cBnez _ _ => true
  | .cSlli rd shamt => c.xRegOk rd && c.shamtOk shamt
  | .cFldsp _ _ => true
  | .cLwsp rd _ => c.xRegOk rd && rd != 0
  | .cFlwsp _ _ => true
  | .cLdsp rd _ => c.xRegOk rd && rd != 0
  | .cJr rs1 => c.xRegOk rs1 && rs1 != 0
  | .cMv rd rs2 => c.xRegOk rd && c.xRegOk rs2 && rs2 != 0
  | .cEbreak => true
  | .cJalr rs1 => c.xRegOk rs1 && rs1 != 0
  | .cAdd rd rs2 => c.xRegOk rd && c.xRegOk rs2 && rs2 != 0 && !(c.ext.zihintntl && rd == 0 && isNtlReg rs2)
  | .cFsdsp _ _ => true
  | .cSwsp rs2 _ => c.xRegOk rs2
  | .cFswsp _ _ => true
  | .cSdsp rs2 _ => c.xRegOk rs2
  | .cNtlP1 => true
  | .cNtlPall => true
  | .cNtlS1 => true
  | .cNtlAll => true

/-- A well-formed instruction of a configuration: defined there, with operands its encoding may carry. -/
def Instr.wf (c : Cfg) (i : Instr) : Bool := i.available c && i.operandsOk c

end Sys2Proof
end

