-- ==== Sys2Proof/Decode.lean ====
section
/-! DEFINITION. From bits to instructions (30_encoding.md R190 to R222; 48_c.md R804 to R808): the fields of a
word, the decoder, total and rejecting by name, and the encoder, from the same tables. -/

namespace Sys2Proof

/-! ### The fields of a 32-bit word -/

/-- A 32-bit word as the fields of the R format, of which every other format's fields are made
(30_encoding.md R200). -/
structure Parts where
  f7 : BitVec 7
  rs2 : RegNum
  rs1 : RegNum
  f3 : BitVec 3
  rd : RegNum
  op : BitVec 7
deriving DecidableEq, Repr

/-- The fields of a word (R200). -/
def partsOf (w : InstrWord) : Parts :=
  { f7 := w.extractLsb' 25 7, rs2 := w.extractLsb' 20 5, rs1 := w.extractLsb' 15 5,
    f3 := w.extractLsb' 12 3, rd := w.extractLsb' 7 5, op := w.extractLsb' 0 7 }

/-- The word of given fields (R200). -/
def Parts.word (p : Parts) : InstrWord := p.f7 ++ p.rs2 ++ p.rs1 ++ p.f3 ++ p.rd ++ p.op

/-- `inst[31:20]`: the I-immediate, a CSR number, or `fm`, `pred`, `succ` of FENCE (R203, R208, R217). -/
def Parts.immIBits (p : Parts) : BitVec 12 := p.f7 ++ p.rs2

/-- `inst[31:25], inst[11:7]`: the S-immediate (R204). -/
def Parts.immSBits (p : Parts) : BitVec 12 := p.f7 ++ p.rd

/-- `inst[31], inst[7], inst[30:25], inst[11:8]`: bits 12 to 1 of the B-immediate (R205). -/
def Parts.immBBits (p : Parts) : BitVec 12 :=
  p.f7.extractLsb' 6 1 ++ p.rd.extractLsb' 0 1 ++ p.f7.extractLsb' 0 6 ++ p.rd.extractLsb' 1 4

/-- `inst[31:12]`: bits 31 to 12 of the U-immediate (R206). -/
def Parts.immUBits (p : Parts) : BitVec 20 := p.f7 ++ p.rs2 ++ p.rs1 ++ p.f3

/-- `inst[31], inst[19:12], inst[20], inst[30:21]`: bits 20 to 1 of the J-immediate (R207). -/
def Parts.immJBits (p : Parts) : BitVec 20 :=
  p.f7.extractLsb' 6 1 ++ p.rs1 ++ p.f3 ++ p.rs2.extractLsb' 0 1 ++ p.f7.extractLsb' 0 6 ++ p.rs2.extractLsb' 1 4

/-- `inst[25:20]`: the shift amount of SLLI, SRLI, SRAI on RV64 (R208, R221). -/
def Parts.shamt6 (p : Parts) : BitVec 6 := p.f7.extractLsb' 0 1 ++ p.rs2

/-! ### The fields of a 16-bit parcel -/

/-- A 16-bit parcel as the fields of the CI format, of which every other format's fields are made
(48_c.md R804). -/
structure CParts where
  f3 : BitVec 3
  b12 : BitVec 1
  r1 : RegNum
  r2 : RegNum
  op : BitVec 2
deriving DecidableEq, Repr

/-- The fields of a parcel (48_c.md R804). -/
def cpartsOf (p : Parcel) : CParts :=
  { f3 := p.extractLsb' 13 3, b12 := p.extractLsb' 12 1, r1 := p.extractLsb' 7 5,
    r2 := p.extractLsb' 2 5, op := p.extractLsb' 0 2 }

/-- The parcel of given fields (48_c.md R804). -/
def CParts.parcel (p : CParts) : Parcel := p.f3 ++ p.b12 ++ p.r1 ++ p.r2 ++ p.op

/-- The parcel of given fields, in the low half of a word (30_encoding.md R191). -/
def CParts.word (p : CParts) : InstrWord := p.parcel.setWidth 32

/-- `inst[9:7]`: the register field `rs1'` or `rd'/rs1'` (48_c.md R804). -/
def CParts.q1 (p : CParts) : CRegNum := p.r1.extractLsb' 0 3

/-- `inst[4:2]`: the register field `rs2'` or `rd'` (48_c.md R804). -/
def CParts.q2 (p : CParts) : CRegNum := p.r2.extractLsb' 0 3

/-- `inst[11:10]` (48_c.md R804). -/
def CParts.f2hi (p : CParts) : BitVec 2 := p.r1.extractLsb' 3 2

/-- `inst[6:5]` (48_c.md R804). -/
def CParts.f2lo (p : CParts) : BitVec 2 := p.r2.extractLsb' 3 2

/-- `inst[12:10]` (48_c.md R804). -/
def CParts.hi3 (p : CParts) : BitVec 3 := p.b12 ++ p.f2hi

/-- `inst[12], inst[6:2]`: the six-bit immediate of the CI format (48_c.md R842). -/
def CParts.imm6 (p : CParts) : BitVec 6 := p.b12 ++ p.r2

/-- `nzuimm[9:2]` of C.ADDI4SPN: `inst[12:5] = nzuimm[5:4|9:6|2|3]` (48_c.md R845). -/
def CParts.immCiw (p : CParts) : BitVec 8 :=
  p.r1.extractLsb' 0 4 ++ p.b12 ++ p.r1.extractLsb' 4 1 ++ p.r2.extractLsb' 3 1 ++ p.r2.extractLsb' 4 1

/-- `uimm[6:2]` of C.LW: `inst[12:10] = uimm[5:3]`, `inst[6:5] = uimm[2|6]` (48_c.md R818). -/
def CParts.immClw (p : CParts) : BitVec 5 := p.r2.extractLsb' 3 1 ++ p.hi3 ++ p.r2.extractLsb' 4 1

/-- `uimm[7:3]` of C.LD: `inst[12:10] = uimm[5:3]`, `inst[6:5] = uimm[7:6]` (48_c.md R819). -/
def CParts.immCld (p : CParts) : BitVec 5 := p.f2lo ++ p.hi3

/-- `nzimm[9:4]` of C.ADDI16SP: `inst[12] = nzimm[9]`, `inst[6:2] = nzimm[4|6|8:7|5]` (48_c.md R844). -/
def CParts.imm16sp (p : CParts) : BitVec 6 :=
  p.b12 ++ p.r2.extractLsb' 1 2 ++ p.r2.extractLsb' 3 1 ++ p.r2.extractLsb' 0 1 ++ p.r2.extractLsb' 4 1

/-- `off[11:1]` of C.J: `inst[12:2] = off[11|4|9:8|10|6|7|3:1|5]` (48_c.md R830). -/
def CParts.immCj (p : CParts) : BitVec 11 :=
  p.b12 ++ p.r1.extractLsb' 1 1 ++ p.r1.extractLsb' 2 2 ++ p.r2.extractLsb' 4 1 ++ p.r1.extractLsb' 0 1 ++
    p.r2.extractLsb' 0 1 ++ p.r1.extractLsb' 4 1 ++ p.r2.extractLsb' 1 3

/-- `off[8:1]` of C.BEQZ: `inst[12:10] = off[8|4:3]`, `inst[6:2] = off[7:6|2:1|5]` (48_c.md R834). -/
def CParts.immCb (p : CParts) : BitVec 8 :=
  p.b12 ++ p.r2.extractLsb' 3 2 ++ p.r2.extractLsb' 0 1 ++ p.r1.extractLsb' 3 2 ++ p.r2.extractLsb' 1 2

/-- `uimm[7:2]` of C.LWSP: `inst[12] = uimm[5]`, `inst[6:2] = uimm[4:2|7:6]` (48_c.md R810). -/
def CParts.immLwsp (p : CParts) : BitVec 6 :=
  p.r2.extractLsb' 0 2 ++ p.b12 ++ p.r2.extractLsb' 2 3

/-- `uimm[8:3]` of C.LDSP: `inst[12] = uimm[5]`, `inst[6:2] = uimm[4:3|8:6]` (48_c.md R811). -/
def CParts.immLdsp (p : CParts) : BitVec 6 :=
  p.r2.extractLsb' 0 3 ++ p.b12 ++ p.r2.extractLsb' 3 2

/-- `uimm[7:2]` of C.SWSP: `inst[12:7] = uimm[5:2|7:6]` (48_c.md R814). -/
def CParts.immSwsp (p : CParts) : BitVec 6 :=
  p.r1.extractLsb' 0 2 ++ p.b12 ++ p.r1.extractLsb' 2 3

/-- `uimm[8:3]` of C.SDSP: `inst[12:7] = uimm[5:3|8:6]` (48_c.md R815). -/
def CParts.immSdsp (p : CParts) : BitVec 6 :=
  p.r1.extractLsb' 0 3 ++ p.b12 ++ p.r1.extractLsb' 3 2

/-! ### Decoding 32-bit words by opcode (30_encoding.md R210, R220) -/

/-- Below the major opcode LOAD (R220). -/
def decodeLoad (p : Parts) : Option Instr :=
  match p.f3.toNat with
  | 0 => some (.lb p.rd p.rs1 p.immIBits)
  | 1 => some (.lh p.rd p.rs1 p.immIBits)
  | 2 => some (.lw p.rd p.rs1 p.immIBits)
  | 3 => some (.ld p.rd p.rs1 p.immIBits)
  | 4 => some (.lbu p.rd p.rs1 p.immIBits)
  | 5 => some (.lhu p.rd p.rs1 p.immIBits)
  | 6 => some (.lwu p.rd p.rs1 p.immIBits)
  | _ => none

/-- Below the major opcode LOAD-FP (R220). -/
def decodeLoadFp (p : Parts) : Option Instr :=
  match p.f3.toNat with
  | 1 => some (.flh p.rd p.rs1 p.immIBits)
  | 2 => some (.flw p.rd p.rs1 p.immIBits)
  | 3 => some (.fld p.rd p.rs1 p.immIBits)
  | 4 => some (.flq p.rd p.rs1 p.immIBits)
  | _ => none

/-- Below the major opcode OP-IMM (R220). -/
def decodeOpImm (p : Parts) : Option Instr :=
  match p.f3.toNat with
  | 0 => some (.addi p.rd p.rs1 p.immIBits)
  | 1 =>
    match (p.f7.extractLsb' 1 6).toNat with
    | 0 => some (.slli p.rd p.rs1 p.shamt6)
    | _ => none
  | 2 => some (.slti p.rd p.rs1 p.immIBits)
  | 3 => some (.sltiu p.rd p.rs1 p.immIBits)
  | 4 => some (.xori p.rd p.rs1 p.immIBits)
  | 5 =>
    match (p.f7.extractLsb' 1 6).toNat with
    | 0 => some (.srli p.rd p.rs1 p.shamt6)
    | 16 => some (.srai p.rd p.rs1 p.shamt6)
    | _ => none
  | 6 => some (.ori p.rd p.rs1 p.immIBits)
  | 7 => some (.andi p.rd p.rs1 p.immIBits)
  | _ => none

/-- Below the major opcode OP-IMM-32 (R220). -/
def decodeOpImm32 (p : Parts) : Option Instr :=
  match p.f3.toNat with
  | 0 => some (.addiw p.rd p.rs1 p.immIBits)
  | 1 =>
    match p.f7.toNat with
    | 0 => some (.slliw p.rd p.rs1 p.rs2)
    | _ => none
  | 5 =>
    match p.f7.toNat with
    | 0 => some (.srliw p.rd p.rs1 p.rs2)
    | 32 => some (.sraiw p.rd p.rs1 p.rs2)
    | _ => none
  | _ => none

/-- Below the major opcode STORE (R220). -/
def decodeStore (p : Parts) : Option Instr :=
  match p.f3.toNat with
  | 0 => some (.sb p.rs2 p.rs1 p.immSBits)
  | 1 => some (.sh p.rs2 p.rs1 p.immSBits)
  | 2 => some (.sw p.rs2 p.rs1 p.immSBits)
  | 3 => some (.sd p.rs2 p.rs1 p.immSBits)
  | _ => none

/-- Below the major opcode STORE-FP (R220). -/
def decodeStoreFp (p : Parts) : Option Instr :=
  match p.f3.toNat with
  | 1 => some (.fsh p.rs2 p.rs1 p.immSBits)
  | 2 => some (.fsw p.rs2 p.rs1 p.immSBits)
  | 3 => some (.fsd p.rs2 p.rs1 p.immSBits)
  | 4 => some (.fsq p.rs2 p.rs1 p.immSBits)
  | _ => none

/-- Below the major opcode AMO (R220). -/
def decodeAmo (p : Parts) : Option Instr :=
  match p.f3.toNat with
  | 2 =>
    match (p.f7.extractLsb' 2 5).toNat with
    | 0 => some (.amoaddW p.rd p.rs1 p.rs2 (p.f7.extractLsb' 1 1) (p.f7.extractLsb' 0 1))
    | 1 => some (.amoswapW p.rd p.rs1 p.rs2 (p.f7.extractLsb' 1 1) (p.f7.extractLsb' 0 1))
    | 2 =>
      match p.rs2.toNat with
      | 0 => some (.lrW p.rd p.rs1 (p.f7.extractLsb' 1 1) (p.f7.extractLsb' 0 1))
      | _ => none
    | 3 => some (.scW p.rd p.rs1 p.rs2 (p.f7.extractLsb' 1 1) (p.f7.extractLsb' 0 1))
    | 4 => some (.amoxorW p.rd p.rs1 p.rs2 (p.f7.extractLsb' 1 1) (p.f7.extractLsb' 0 1))
    | 8 => some (.amoorW p.rd p.rs1 p.rs2 (p.f7.extractLsb' 1 1) (p.f7.extractLsb' 0 1))
    | 12 => some (.amoandW p.rd p.rs1 p.rs2 (p.f7.extractLsb' 1 1) (p.f7.extractLsb' 0 1))
    | 16 => some (.amominW p.rd p.rs1 p.rs2 (p.f7.extractLsb' 1 1) (p.f7.extractLsb' 0 1))
    | 20 => some (.amomaxW p.rd p.rs1 p.rs2 (p.f7.extractLsb' 1 1) (p.f7.extractLsb' 0 1))
    | 24 => some (.amominuW p.rd p.rs1 p.rs2 (p.f7.extractLsb' 1 1) (p.f7.extractLsb' 0 1))
    | 28 => some (.amomaxuW p.rd p.rs1 p.rs2 (p.f7.extractLsb' 1 1) (p.f7.extractLsb' 0 1))
    | _ => none
  | 3 =>
    match (p.f7.extractLsb' 2 5).toNat with
    | 0 => some (.amoaddD p.rd p.rs1 p.rs2 (p.f7.extractLsb' 1 1) (p.f7.extractLsb' 0 1))
    | 1 => some (.amoswapD p.rd p.rs1 p.rs2 (p.f7.extractLsb' 1 1) (p.f7.extractLsb' 0 1))
    | 2 =>
      match p.rs2.toNat with
      | 0 => some (.lrD p.rd p.rs1 (p.f7.extractLsb' 1 1) (p.f7.extractLsb' 0 1))
      | _ => none
    | 3 => some (.scD p.rd p.rs1 p.rs2 (p.f7.extractLsb' 1 1) (p.f7.extractLsb' 0 1))
    | 4 => some (.amoxorD p.rd p.rs1 p.rs2 (p.f7.extractLsb' 1 1) (p.f7.extractLsb' 0 1))
    | 8 => some (.amoorD p.rd p.rs1 p.rs2 (p.f7.extractLsb' 1 1) (p.f7.extractLsb' 0 1))
    | 12 => some (.amoandD p.rd p.rs1 p.rs2 (p.f7.extractLsb' 1 1) (p.f7.extractLsb' 0 1))
    | 16 => some (.amominD p.rd p.rs1 p.rs2 (p.f7.extractLsb' 1 1) (p.f7.extractLsb' 0 1))
    | 20 => some (.amomaxD p.rd p.rs1 p.rs2 (p.f7.extractLsb' 1 1) (p.f7.extractLsb' 0 1))
    | 24 => some (.amominuD p.rd p.rs1 p.rs2 (p.f7.extractLsb' 1 1) (p.f7.extractLsb' 0 1))
    | 28 => some (.amomaxuD p.rd p.rs1 p.rs2 (p.f7.extractLsb' 1 1) (p.f7.extractLsb' 0 1))
    | _ => none
  | _ => none

/-- Below the major opcode OP-32 (R220). -/
def decodeOp32 (p : Parts) : Option Instr :=
  match p.f3.toNat with
  | 0 =>
    match p.f7.toNat with
    | 0 => some (.addw p.rd p.rs1 p.rs2)
    | 1 => some (.mulw p.rd p.rs1 p.rs2)
    | 32 => some (.subw p.rd p.rs1 p.rs2)
    | _ => none
  | 1 =>
    match p.f7.toNat with
    | 0 => some (.sllw p.rd p.rs1 p.rs2)
    | _ => none
  | 4 =>
    match p.f7.toNat with
    | 1 => some (.divw p.rd p.rs1 p.rs2)
    | _ => none
  | 5 =>
    match p.f7.toNat with
    | 0 => some (.srlw p.rd p.rs1 p.rs2)
    | 1 => some (.divuw p.rd p.rs1 p.rs2)
    | 32 => some (.sraw p.rd p.rs1 p.rs2)
    | _ => none
  | 6 =>
    match p.f7.toNat with
    | 1 => some (.remw p.rd p.rs1 p.rs2)
    | _ => none
  | 7 =>
    match p.f7.toNat with
    | 1 => some (.remuw p.rd p.rs1 p.rs2)
    | _ => none
  | _ => none

/-- Below the major opcode MADD (R220). -/
def decodeMadd (p : Parts) : Option Instr :=
  match (p.f7.extractLsb' 0 2).toNat with
  | 0 => some (.fmaddS p.rd p.rs1 p.rs2 (p.f7.extractLsb' 2 5) p.f3)
  | 1 => some (.fmaddD p.rd p.rs1 p.rs2 (p.f7.extractLsb' 2 5) p.f3)
  | 2 => some (.fmaddH p.rd p.rs1 p.rs2 (p.f7.extractLsb' 2 5) p.f3)
  | 3 => some (.fmaddQ p.rd p.rs1 p.rs2 (p.f7.extractLsb' 2 5) p.f3)
  | _ => none

/-- Below the major opcode MSUB (R220). -/
def decodeMsub (p : Parts) : Option Instr :=
  match (p.f7.extractLsb' 0 2).toNat with
  | 0 => some (.fmsubS p.rd p.rs1 p.rs2 (p.f7.extractLsb' 2 5) p.f3)
  | 1 => some (.fmsubD p.rd p.rs1 p.rs2 (p.f7.extractLsb' 2 5) p.f3)
  | 2 => some (.fmsubH p.rd p.rs1 p.rs2 (p.f7.extractLsb' 2 5) p.f3)
  | 3 => some (.fmsubQ p.rd p.rs1 p.rs2 (p.f7.extractLsb' 2 5) p.f3)
  | _ => none

/-- Below the major opcode NMSUB (R220). -/
def decodeNmsub (p : Parts) : Option Instr :=
  match (p.f7.extractLsb' 0 2).toNat with
  | 0 => some (.fnmsubS p.rd p.rs1 p.rs2 (p.f7.extractLsb' 2 5) p.f3)
  | 1 => some (.fnmsubD p.rd p.rs1 p.rs2 (p.f7.extractLsb' 2 5) p.f3)
  | 2 => some (.fnmsubH p.rd p.rs1 p.rs2 (p.f7.extractLsb' 2 5) p.f3)
  | 3 => some (.fnmsubQ p.rd p.rs1 p.rs2 (p.f7.extractLsb' 2 5) p.f3)
  | _ => none

/-- Below the major opcode NMADD (R220). -/
def decodeNmadd (p : Parts) : Option Instr :=
  match (p.f7.extractLsb' 0 2).toNat with
  | 0 => some (.fnmaddS p.rd p.rs1 p.rs2 (p.f7.extractLsb' 2 5) p.f3)
  | 1 => some (.fnmaddD p.rd p.rs1 p.rs2 (p.f7.extractLsb' 2 5) p.f3)
  | 2 => some (.fnmaddH p.rd p.rs1 p.rs2 (p.f7.extractLsb' 2 5) p.f3)
  | 3 => some (.fnmaddQ p.rd p.rs1 p.rs2 (p.f7.extractLsb' 2 5) p.f3)
  | _ => none

/-- Below the major opcode BRANCH (R220). -/
def decodeBranch (p : Parts) : Option Instr :=
  match p.f3.toNat with
  | 0 => some (.beq p.rs1 p.rs2 p.immBBits)
  | 1 => some (.bne p.rs1 p.rs2 p.immBBits)
  | 4 => some (.blt p.rs1 p.rs2 p.immBBits)
  | 5 => some (.bge p.rs1 p.rs2 p.immBBits)
  | 6 => some (.bltu p.rs1 p.rs2 p.immBBits)
  | 7 => some (.bgeu p.rs1 p.rs2 p.immBBits)
  | _ => none

/-- Below OP-FP, `fmt` = 00 (R220). -/
def decodeOpFpS (p : Parts) : Option Instr :=
  match (p.f7.extractLsb' 2 5).toNat with
  | 0 => some (.faddS p.rd p.rs1 p.rs2 p.f3)
  | 1 => some (.fsubS p.rd p.rs1 p.rs2 p.f3)
  | 2 => some (.fmulS p.rd p.rs1 p.rs2 p.f3)
  | 3 => some (.fdivS p.rd p.rs1 p.rs2 p.f3)
  | 4 =>
    match p.f3.toNat with
    | 0 => some (.fsgnjS p.rd p.rs1 p.rs2)
    | 1 => some (.fsgnjnS p.rd p.rs1 p.rs2)
    | 2 => some (.fsgnjxS p.rd p.rs1 p.rs2)
    | _ => none
  | 5 =>
    match p.f3.toNat with
    | 0 => some (.fminS p.rd p.rs1 p.rs2)
    | 1 => some (.fmaxS p.rd p.rs1 p.rs2)
    | _ => none
  | 8 =>
    match p.rs2.toNat with
    | 1 => some (.fcvtSD p.rd p.rs1 p.f3)
    | 2 => some (.fcvtSH p.rd p.rs1 p.f3)
    | 3 => some (.fcvtSQ p.rd p.rs1 p.f3)
    | _ => none
  | 11 =>
    match p.rs2.toNat with
    | 0 => some (.fsqrtS p.rd p.rs1 p.f3)
    | _ => none
  | 20 =>
    match p.f3.toNat with
    | 0 => some (.fleS p.rd p.rs1 p.rs2)
    | 1 => some (.fltS p.rd p.rs1 p.rs2)
    | 2 => some (.feqS p.rd p.rs1 p.rs2)
    | _ => none
  | 24 =>
    match p.rs2.toNat with
    | 0 => some (.fcvtWS p.rd p.rs1 p.f3)
    | 1 => some (.fcvtWuS p.rd p.rs1 p.f3)
    | 2 => some (.fcvtLS p.rd p.rs1 p.f3)
    | 3 => some (.fcvtLuS p.rd p.rs1 p.f3)
    | _ => none
  | 26 =>
    match p.rs2.toNat with
    | 0 => some (.fcvtSW p.rd p.rs1 p.f3)
    | 1 => some (.fcvtSWu p.rd p.rs1 p.f3)
    | 2 => some (.fcvtSL p.rd p.rs1 p.f3)
    | 3 => some (.fcvtSLu p.rd p.rs1 p.f3)
    | _ => none
  | 28 =>
    match p.f3.toNat with
    | 0 =>
      match p.rs2.toNat with
      | 0 => some (.fmvXW p.rd p.rs1)
      | _ => none
    | 1 =>
      match p.rs2.toNat with
      | 0 => some (.fclassS p.rd p.rs1)
      | _ => none
    | _ => none
  | 30 =>
    match p.f3.toNat with
    | 0 =>
      match p.rs2.toNat with
      | 0 => some (.fmvWX p.rd p.rs1)
      | _ => none
    | _ => none
  | _ => none

/-- Below OP-FP, `fmt` = 01 (R220). -/
def decodeOpFpD (p : Parts) : Option Instr :=
  match (p.f7.extractLsb' 2 5).toNat with
  | 0 => some (.faddD p.rd p.rs1 p.rs2 p.f3)
  | 1 => some (.fsubD p.rd p.rs1 p.rs2 p.f3)
  | 2 => some (.fmulD p.rd p.rs1 p.rs2 p.f3)
  | 3 => some (.fdivD p.rd p.rs1 p.rs2 p.f3)
  | 4 =>
    match p.f3.toNat with
    | 0 => some (.fsgnjD p.rd p.rs1 p.rs2)
    | 1 => some (.fsgnjnD p.rd p.rs1 p.rs2)
    | 2 => some (.fsgnjxD p.rd p.rs1 p.rs2)
    | _ => none
  | 5 =>
    match p.f3.toNat with
    | 0 => some (.fminD p.rd p.rs1 p.rs2)
    | 1 => some (.fmaxD p.rd p.rs1 p.rs2)
    | _ => none
  | 8 =>
    match p.rs2.toNat with
    | 0 => some (.fcvtDS p.rd p.rs1 p.f3)
    | 2 => some (.fcvtDH p.rd p.rs1 p.f3)
    | 3 => some (.fcvtDQ p.rd p.rs1 p.f3)
    | _ => none
  | 11 =>
    match p.rs2.toNat with
    | 0 => some (.fsqrtD p.rd p.rs1 p.f3)
    | _ => none
  | 20 =>
    match p.f3.toNat with
    | 0 => some (.fleD p.rd p.rs1 p.rs2)
    | 1 => some (.fltD p.rd p.rs1 p.rs2)
    | 2 => some (.feqD p.rd p.rs1 p.rs2)
    | _ => none
  | 24 =>
    match p.rs2.toNat with
    | 0 => some (.fcvtWD p.rd p.rs1 p.f3)
    | 1 => some (.fcvtWuD p.rd p.rs1 p.f3)
    | 2 => some (.fcvtLD p.rd p.rs1 p.f3)
    | 3 => some (.fcvtLuD p.rd p.rs1 p.f3)
    | _ => none
  | 26 =>
    match p.rs2.toNat with
    | 0 => some (.fcvtDW p.rd p.rs1 p.f3)
    | 1 => some (.fcvtDWu p.rd p.rs1 p.f3)
    | 2 => some (.fcvtDL p.rd p.rs1 p.f3)
    | 3 => some (.fcvtDLu p.rd p.rs1 p.f3)
    | _ => none
  | 28 =>
    match p.f3.toNat with
    | 0 =>
      match p.rs2.toNat with
      | 0 => some (.fmvXD p.rd p.rs1)
      | _ => none
    | 1 =>
      match p.rs2.toNat with
      | 0 => some (.fclassD p.rd p.rs1)
      | _ => none
    | _ => none
  | 30 =>
    match p.f3.toNat with
    | 0 =>
      match p.rs2.toNat with
      | 0 => some (.fmvDX p.rd p.rs1)
      | _ => none
    | _ => none
  | _ => none

/-- Below OP-FP, `fmt` = 10 (R220). -/
def decodeOpFpH (p : Parts) : Option Instr :=
  match (p.f7.extractLsb' 2 5).toNat with
  | 0 => some (.faddH p.rd p.rs1 p.rs2 p.f3)
  | 1 => some (.fsubH p.rd p.rs1 p.rs2 p.f3)
  | 2 => some (.fmulH p.rd p.rs1 p.rs2 p.f3)
  | 3 => some (.fdivH p.rd p.rs1 p.rs2 p.f3)
  | 4 =>
    match p.f3.toNat with
    | 0 => some (.fsgnjH p.rd p.rs1 p.rs2)
    | 1 => some (.fsgnjnH p.rd p.rs1 p.rs2)
    | 2 => some (.fsgnjxH p.rd p.rs1 p.rs2)
    | _ => none
  | 5 =>
    match p.f3.toNat with
    | 0 => some (.fminH p.rd p.rs1 p.rs2)
    | 1 => some (.fmaxH p.rd p.rs1 p.rs2)
    | _ => none
  | 8 =>
    match p.rs2.toNat with
    | 0 => some (.fcvtHS p.rd p.rs1 p.f3)
    | 1 => some (.fcvtHD p.rd p.rs1 p.f3)
    | 3 => some (.fcvtHQ p.rd p.rs1 p.f3)
    | _ => none
  | 11 =>
    match p.rs2.toNat with
    | 0 => some (.fsqrtH p.rd p.rs1 p.f3)
    | _ => none
  | 20 =>
    match p.f3.toNat with
    | 0 => some (.fleH p.rd p.rs1 p.rs2)
    | 1 => some (.fltH p.rd p.rs1 p.rs2)
    | 2 => some (.feqH p.rd p.rs1 p.rs2)
    | _ => none
  | 24 =>
    match p.rs2.toNat with
    | 0 => some (.fcvtWH p.rd p.rs1 p.f3)
    | 1 => some (.fcvtWuH p.rd p.rs1 p.f3)
    | 2 => some (.fcvtLH p.rd p.rs1 p.f3)
    | 3 => some (.fcvtLuH p.rd p.rs1 p.f3)
    | _ => none
  | 26 =>
    match p.rs2.toNat with
    | 0 => some (.fcvtHW p.rd p.rs1 p.f3)
    | 1 => some (.fcvtHWu p.rd p.rs1 p.f3)
    | 2 => some (.fcvtHL p.rd p.rs1 p.f3)
    | 3 => some (.fcvtHLu p.rd p.rs1 p.f3)
    | _ => none
  | 28 =>
    match p.f3.toNat with
    | 0 =>
      match p.rs2.toNat with
      | 0 => some (.fmvXH p.rd p.rs1)
      | _ => none
    | 1 =>
      match p.rs2.toNat with
      | 0 => some (.fclassH p.rd p.rs1)
      | _ => none
    | _ => none
  | 30 =>
    match p.f3.toNat with
    | 0 =>
      match p.rs2.toNat with
      | 0 => some (.fmvHX p.rd p.rs1)
      | _ => none
    | _ => none
  | _ => none

/-- Below OP-FP, `fmt` = 11 (R220). -/
def decodeOpFpQ (p : Parts) : Option Instr :=
  match (p.f7.extractLsb' 2 5).toNat with
  | 0 => some (.faddQ p.rd p.rs1 p.rs2 p.f3)
  | 1 => some (.fsubQ p.rd p.rs1 p.rs2 p.f3)
  | 2 => some (.fmulQ p.rd p.rs1 p.rs2 p.f3)
  | 3 => some (.fdivQ p.rd p.rs1 p.rs2 p.f3)
  | 4 =>
    match p.f3.toNat with
    | 0 => some (.fsgnjQ p.rd p.rs1 p.rs2)
    | 1 => some (.fsgnjnQ p.rd p.rs1 p.rs2)
    | 2 => some (.fsgnjxQ p.rd p.rs1 p.rs2)
    | _ => none
  | 5 =>
    match p.f3.toNat with
    | 0 => some (.fminQ p.rd p.rs1 p.rs2)
    | 1 => some (.fmaxQ p.rd p.rs1 p.rs2)
    | _ => none
  | 8 =>
    match p.rs2.toNat with
    | 0 => some (.fcvtQS p.rd p.rs1 p.f3)
    | 1 => some (.fcvtQD p.rd p.rs1 p.f3)
    | 2 => some (.fcvtQH p.rd p.rs1 p.f3)
    | _ => none
  | 11 =>
    match p.rs2.toNat with
    | 0 => some (.fsqrtQ p.rd p.rs1 p.f3)
    | _ => none
  | 20 =>
    match p.f3.toNat with
    | 0 => some (.fleQ p.rd p.rs1 p.rs2)
    | 1 => some (.fltQ p.rd p.rs1 p.rs2)
    | 2 => some (.feqQ p.rd p.rs1 p.rs2)
    | _ => none
  | 24 =>
    match p.rs2.toNat with
    | 0 => some (.fcvtWQ p.rd p.rs1 p.f3)
    | 1 => some (.fcvtWuQ p.rd p.rs1 p.f3)
    | 2 => some (.fcvtLQ p.rd p.rs1 p.f3)
    | 3 => some (.fcvtLuQ p.rd p.rs1 p.f3)
    | _ => none
  | 26 =>
    match p.rs2.toNat with
    | 0 => some (.fcvtQW p.rd p.rs1 p.f3)
    | 1 => some (.fcvtQWu p.rd p.rs1 p.f3)
    | 2 => some (.fcvtQL p.rd p.rs1 p.f3)
    | 3 => some (.fcvtQLu p.rd p.rs1 p.f3)
    | _ => none
  | 28 =>
    match p.f3.toNat with
    | 1 =>
      match p.rs2.toNat with
      | 0 => some (.fclassQ p.rd p.rs1)
      | _ => none
    | _ => none
  | _ => none

/-- Below the major opcode OP-FP (R220). -/
def decodeOpFp (p : Parts) : Option Instr :=
  match (p.f7.extractLsb' 0 2).toNat with
  | 0 => decodeOpFpS p
  | 1 => decodeOpFpD p
  | 2 => decodeOpFpH p
  | _ => decodeOpFpQ p

/-- `fm`, `pred` and `succ` of a FENCE (R217). -/
def Parts.fenceFm (p : Parts) : BitVec 4 := p.f7.extractLsb' 3 4

/-- See `Parts.fenceFm`. -/
def Parts.fencePred (p : Parts) : BitVec 4 := p.f7.extractLsb' 0 3 ++ p.rs2.extractLsb' 4 1

/-- See `Parts.fenceFm`. -/
def Parts.fenceSucc (p : Parts) : BitVec 4 := p.rs2.extractLsb' 0 4

/-- FENCE and the two code points under it that have rows of their own: FENCE.TSO, and PAUSE where
Zihintpause is present, else a FENCE hint (40_rv32i_base.md R315, R316; 42_zifencei_hints.md R415). -/
def decodeFence (c : Cfg) (fm pred succ : BitVec 4) (rs1 rd : RegNum) : Instr :=
  if isFenceTso fm pred succ rs1 rd then .fenceTso
  else if c.ext.zihintpause && isPause fm pred succ rs1 rd then .pause
  else .fence fm pred succ rs1 rd

/-- Below the major opcode MISC-MEM (R217, R220). -/
def decodeMiscMem (c : Cfg) (p : Parts) : Option Instr :=
  match p.f3.toNat with
  | 0 => some (decodeFence c p.fenceFm p.fencePred p.fenceSucc p.rs1 p.rd)
  | 1 => some (.fenceI p.immIBits p.rs1 p.rd)
  | _ => none

/-- Below SYSTEM with `funct3 = 000`: two words only (R218). -/
def decodePriv (p : Parts) : Option Instr :=
  if p.rs1 = 0 ∧ p.rd = 0 then
    match p.immIBits.toNat with
    | 0 => some .ecall
    | 1 => some .ebreak
    | _ => none
  else none

/-- Below the major opcode SYSTEM (R218, R220). -/
def decodeSystem (p : Parts) : Option Instr :=
  match p.f3.toNat with
  | 0 => decodePriv p
  | 1 => some (.csrrw p.rd p.immIBits p.rs1)
  | 2 => some (.csrrs p.rd p.immIBits p.rs1)
  | 3 => some (.csrrc p.rd p.immIBits p.rs1)
  | 5 => some (.csrrwi p.rd p.immIBits p.rs1)
  | 6 => some (.csrrsi p.rd p.immIBits p.rs1)
  | 7 => some (.csrrci p.rd p.immIBits p.rs1)
  | _ => none

/-- ADD and, where Zihintntl is present, the four hints under it that have rows of their own
(42_zifencei_hints.md R406 to R409). -/
def decodeAdd (c : Cfg) (rd rs1 rs2 : RegNum) : Instr :=
  if c.ext.zihintntl && rd == 0 && rs1 == 0 && isNtlReg rs2 then
    match rs2.toNat with
    | 2 => .ntlP1
    | 3 => .ntlPall
    | 4 => .ntlS1
    | _ => .ntlAll
  else .add rd rs1 rs2

/-- Below the major opcode OP (R220). -/
def decodeOp (c : Cfg) (p : Parts) : Option Instr :=
  match p.f7.toNat with
  | 0 =>
    match p.f3.toNat with
    | 0 => some (decodeAdd c p.rd p.rs1 p.rs2)
    | 1 => some (.sll p.rd p.rs1 p.rs2)
    | 2 => some (.slt p.rd p.rs1 p.rs2)
    | 3 => some (.sltu p.rd p.rs1 p.rs2)
    | 4 => some (.xor p.rd p.rs1 p.rs2)
    | 5 => some (.srl p.rd p.rs1 p.rs2)
    | 6 => some (.or p.rd p.rs1 p.rs2)
    | 7 => some (.and p.rd p.rs1 p.rs2)
    | _ => none
  | 1 =>
    match p.f3.toNat with
    | 0 => some (.mul p.rd p.rs1 p.rs2)
    | 1 => some (.mulh p.rd p.rs1 p.rs2)
    | 2 => some (.mulhsu p.rd p.rs1 p.rs2)
    | 3 => some (.mulhu p.rd p.rs1 p.rs2)
    | 4 => some (.div p.rd p.rs1 p.rs2)
    | 5 => some (.divu p.rd p.rs1 p.rs2)
    | 6 => some (.rem p.rd p.rs1 p.rs2)
    | 7 => some (.remu p.rd p.rs1 p.rs2)
    | _ => none
  | 32 =>
    match p.f3.toNat with
    | 0 => some (.sub p.rd p.rs1 p.rs2)
    | 5 => some (.sra p.rd p.rs1 p.rs2)
    | _ => none
  | _ => none

/-- Below the major opcode JALR (R220). -/
def decodeJalr (p : Parts) : Option Instr :=
  match p.f3.toNat with
  | 0 => some (.jalr p.rd p.rs1 p.immIBits)
  | _ => none

/-- The row a 32-bit word matches, by its opcode (R210, R220). -/
def decode32 (c : Cfg) (p : Parts) : Option Instr :=
  match p.op.toNat with
  | 0x03 => decodeLoad p
  | 0x07 => decodeLoadFp p
  | 0x0F => decodeMiscMem c p
  | 0x13 => decodeOpImm p
  | 0x17 => some (.auipc p.rd p.immUBits)
  | 0x1B => decodeOpImm32 p
  | 0x23 => decodeStore p
  | 0x27 => decodeStoreFp p
  | 0x2F => decodeAmo p
  | 0x33 => decodeOp c p
  | 0x37 => some (.lui p.rd p.immUBits)
  | 0x3B => decodeOp32 p
  | 0x43 => decodeMadd p
  | 0x47 => decodeMsub p
  | 0x4B => decodeNmsub p
  | 0x4F => decodeNmadd p
  | 0x53 => decodeOpFp p
  | 0x63 => decodeBranch p
  | 0x67 => decodeJalr p
  | 0x6F => some (.jal p.rd p.immJBits)
  | 0x73 => decodeSystem p
  | _ => none

/-! ### Decoding 16-bit parcels by quadrant (48_c.md R807, R808)

From here `noncomputable` says one thing only: the compiler has no object tag for a constructor past the
244th of one type, so no machine code is produced. The definitions are structural, and the kernel
evaluates them. -/

/-- Quadrant 0 (48_c.md R808). -/
def decodeC0 (c : Cfg) (p : CParts) : Option Instr :=
  match p.f3.toNat with
  | 0 => some (.cAddi4spn p.q2 p.immCiw)
  | 1 => some (.cFld p.q2 p.q1 p.immCld)
  | 2 => some (.cLw p.q2 p.q1 p.immClw)
  | 3 =>
    match c.xlen with
    | .rv32 => some (.cFlw p.q2 p.q1 p.immClw)
    | .rv64 => some (.cLd p.q2 p.q1 p.immCld)
  | 5 => some (.cFsd p.q2 p.q1 p.immCld)
  | 6 => some (.cSw p.q2 p.q1 p.immClw)
  | 7 =>
    match c.xlen with
    | .rv32 => some (.cFsw p.q2 p.q1 p.immClw)
    | .rv64 => some (.cSd p.q2 p.q1 p.immCld)
  | _ => none

/-- Quadrant 1, `inst[15:13] = 100` (48_c.md R808). -/
noncomputable def decodeC1Alu (p : CParts) : Option Instr :=
  match p.f2hi.toNat with
  | 0 => some (.cSrli p.q1 p.imm6)
  | 1 => some (.cSrai p.q1 p.imm6)
  | 2 => some (.cAndi p.q1 p.imm6)
  | _ =>
    match p.b12.toNat, p.f2lo.toNat with
    | 0, 0 => some (.cSub p.q1 p.q2)
    | 0, 1 => some (.cXor p.q1 p.q2)
    | 0, 2 => some (.cOr p.q1 p.q2)
    | 0, 3 => some (.cAnd p.q1 p.q2)
    | 1, 0 => some (.cSubw p.q1 p.q2)
    | 1, 1 => some (.cAddw p.q1 p.q2)
    | _, _ => none

/-- Quadrant 1 (48_c.md R808). -/
noncomputable def decodeC1 (c : Cfg) (p : CParts) : Option Instr :=
  match p.f3.toNat with
  | 0 => if p.r1 = 0 then some (.cNop p.imm6) else some (.cAddi p.r1 p.imm6)
  | 1 =>
    match c.xlen with
    | .rv32 => some (.cJal p.immCj)
    | .rv64 => some (.cAddiw p.r1 p.imm6)
  | 2 => some (.cLi p.r1 p.imm6)
  | 3 => if p.r1 = 2 then some (.cAddi16sp p.imm16sp) else some (.cLui p.r1 p.imm6)
  | 4 => decodeC1Alu p
  | 5 => some (.cJ p.immCj)
  | 6 => some (.cBeqz p.q1 p.immCb)
  | _ => some (.cBnez p.q1 p.immCb)

/-- C.ADD and, where Zihintntl is present, the four hints under it that have rows of their own
(42_zifencei_hints.md R410). -/
noncomputable def decodeCAdd (c : Cfg) (rd rs2 : RegNum) : Instr :=
  if c.ext.zihintntl && rd == 0 && isNtlReg rs2 then
    match rs2.toNat with
    | 2 => .cNtlP1
    | 3 => .cNtlPall
    | 4 => .cNtlS1
    | _ => .cNtlAll
  else .cAdd rd rs2

/-- Quadrant 2, `inst[15:13] = 100` (48_c.md R808). -/
noncomputable def decodeC2Jump (c : Cfg) (p : CParts) : Option Instr :=
  if p.b12 = 0 then
    if p.r2 = 0 then some (.cJr p.r1) else some (.cMv p.r1 p.r2)
  else if p.r2 = 0 then
    if p.r1 = 0 then some .cEbreak else some (.cJalr p.r1)
  else some (decodeCAdd c p.r1 p.r2)

/-- Quadrant 2 (48_c.md R808). -/
noncomputable def decodeC2 (c : Cfg) (p : CParts) : Option Instr :=
  match p.f3.toNat with
  | 0 => some (.cSlli p.r1 p.imm6)
  | 1 => some (.cFldsp p.r1 p.immLdsp)
  | 2 => some (.cLwsp p.r1 p.immLwsp)
  | 3 =>
    match c.xlen with
    | .rv32 => some (.cFlwsp p.r1 p.immLwsp)
    | .rv64 => some (.cLdsp p.r1 p.immLdsp)
  | 4 => decodeC2Jump c p
  | 5 => some (.cFsdsp p.r2 p.immSdsp)
  | 6 => some (.cSwsp p.r2 p.immSwsp)
  | _ =>
    match c.xlen with
    | .rv32 => some (.cFswsp p.r2 p.immSwsp)
    | .rv64 => some (.cSdsp p.r2 p.immSdsp)

/-- The row a 16-bit parcel matches, by its quadrant (48_c.md R807). -/
noncomputable def decode16 (c : Cfg) (p : CParts) : Option Instr :=
  match p.op.toNat with
  | 0 => decodeC0 c p
  | 1 => decodeC1 c p
  | 2 => decodeC2 c p
  | _ => none

/-! ### The decoder -/

/-- Why the decoder refuses. -/
inductive Reject where
  /-- a parcel of zeros, defined illegal (R194) -/
  | allZeros
  /-- a word of ones, defined illegal (R194) -/
  | allOnes
  /-- an encoding longer than 32 bits (R192, R193) -/
  | tooLong
  /-- no row of the table matches (R230 (a), (c)) -/
  | noSuchEncoding
  /-- a row matches whose extension or XLEN is not in the configuration (R230 (a)) -/
  | notInConfiguration
  /-- a row matches with operands that are reserved (R230 (b), R231; 48_c.md R875) -/
  | reservedOperands
  /-- fewer bytes than the instruction has -/
  | truncated
deriving DecidableEq, Repr

/-- What the decoder answers. -/
inductive Decoded where
  | instr (i : Instr)
  | rejected (r : Reject)
deriving DecidableEq, Repr

/-- Whether the low two bits of an instruction make it 16 bits long (R192). -/
def isCompressed (w : InstrWord) : Bool := w.extractLsb' 0 2 != 0b11#2

/-- Whether the low five bits put an instruction in the longer-than-32-bit space (R192). -/
def isLong (w : InstrWord) : Bool := w.extractLsb' 0 5 == 0b11111#5

/-- Whether a configuration defines a row (R220); the decoder's own name for `Instr.available`. -/
def rowDefined (c : Cfg) (i : Instr) : Bool := i.available c

/-- Whether the operands of a matched row are not reserved (R220, R231); the decoder's own name for
`Instr.operandsOk`. -/
def operandsAllowed (c : Cfg) (i : Instr) : Bool := i.operandsOk c

/-- Admit a matched row if the configuration defines it with these operands. -/
def admitted (c : Cfg) (r : Option Instr) : Decoded :=
  match r with
  | none => .rejected .noSuchEncoding
  | some i =>
    if rowDefined c i then
      if operandsAllowed c i then .instr i else .rejected .reservedOperands
    else .rejected .notInConfiguration

/-- Decode an instruction word; a 16-bit instruction is in its low half (R191, R192, R194, R220). -/
noncomputable def decode (c : Cfg) (w : InstrWord) : Decoded :=
  if isCompressed w then
    if w.setWidth 16 = 0#16 then .rejected .allZeros
    else admitted c (decode16 c (cpartsOf (w.setWidth 16)))
  else if isLong w then
    if w = BitVec.allOnes 32 then .rejected .allOnes else .rejected .tooLong
  else admitted c (decode32 c (partsOf w))

/-- The number of bytes of the instruction a word holds (R192). -/
def wordLen (w : InstrWord) : Nat := if isCompressed w then 2 else 4

/-- The word of four bytes, lowest address first (R191). -/
def wordOfBytes (b0 b1 b2 b3 : Byte) : InstrWord := b3 ++ b2 ++ b1 ++ b0

/-- What the decoder answers on bytes: an instruction with the bytes after it, or why not. -/
inductive DecodedBytes where
  | instr (i : Instr) (rest : List Byte)
  | rejected (r : Reject)
deriving DecidableEq, Repr

/-- Decode the instruction at the head of a list of bytes, whatever they are (R191, R192). -/
noncomputable def decodeBytes (c : Cfg) (bs : List Byte) : DecodedBytes :=
  match bs with
  | b0 :: b1 :: rest =>
    if isCompressed (wordOfBytes b0 b1 0 0) then
      match decode c (wordOfBytes b0 b1 0 0) with
      | .instr i => .instr i rest
      | .rejected r => .rejected r
    else
      match rest with
      | b2 :: b3 :: rest' =>
        match decode c (wordOfBytes b0 b1 b2 b3) with
        | .instr i => .instr i rest'
        | .rejected r => .rejected r
      | _ => .rejected .truncated
  | _ => .rejected .truncated

/-- The four bytes at which an instruction word of at most 32 bits is laid out, lowest address first
(R191). -/
def bytesOfWord (w : InstrWord) : List Byte :=
  [w.extractLsb' 0 8, w.extractLsb' 8 8, w.extractLsb' 16 8, w.extractLsb' 24 8]

/-- The word of a row's `nbits` bits, every bit above them 0. -/
def tableWord (nbits w : Nat) : InstrWord := BitVec.ofNat 32 (w % 2 ^ nbits)

/-- The instruction the decoder reads from the bytes of a table row's word, in the reset configuration. -/
noncomputable def decodeTableWord (nbits w : Nat) : Option Instr :=
  match decodeBytes Config.reset (bytesOfWord (tableWord nbits w)) with
  | .instr i _ => some i
  | .rejected _ => none

/-! ### The encoder -/

/-- The R format, and R with `rm` in place of funct3 or a constant in place of rs2 (R200). -/
def encR (op : BitVec 7) (f3 : BitVec 3) (f7 : BitVec 7) (rd rs1 rs2 : RegNum) : Parts :=
  { f7 := f7, rs2 := rs2, rs1 := rs1, f3 := f3, rd := rd, op := op }

/-- The I format (R200, R203). -/
def encI (op : BitVec 7) (f3 : BitVec 3) (rd rs1 : RegNum) (imm : BitVec 12) : Parts :=
  { f7 := imm.extractLsb' 5 7, rs2 := imm.extractLsb' 0 5, rs1 := rs1, f3 := f3, rd := rd, op := op }

/-- The S format (R200, R204). -/
def encS (op : BitVec 7) (f3 : BitVec 3) (rs2 rs1 : RegNum) (imm : BitVec 12) : Parts :=
  { f7 := imm.extractLsb' 5 7, rs2 := rs2, rs1 := rs1, f3 := f3, rd := imm.extractLsb' 0 5, op := op }

/-- The B format from `imm[12:1]` (R200, R205). -/
def encB (op : BitVec 7) (f3 : BitVec 3) (rs1 rs2 : RegNum) (imm : BitVec 12) : Parts :=
  { f7 := imm.extractLsb' 11 1 ++ imm.extractLsb' 4 6, rs2 := rs2, rs1 := rs1, f3 := f3,
    rd := imm.extractLsb' 0 4 ++ imm.extractLsb' 10 1, op := op }

/-- The U format from `imm[31:12]` (R200, R206). -/
def encU (op : BitVec 7) (rd : RegNum) (imm : BitVec 20) : Parts :=
  { f7 := imm.extractLsb' 13 7, rs2 := imm.extractLsb' 8 5, rs1 := imm.extractLsb' 3 5,
    f3 := imm.extractLsb' 0 3, rd := rd, op := op }

/-- The J format from `imm[20:1]` (R200, R207). -/
def encJ (op : BitVec 7) (rd : RegNum) (imm : BitVec 20) : Parts :=
  { f7 := imm.extractLsb' 19 1 ++ imm.extractLsb' 4 6,
    rs2 := imm.extractLsb' 0 4 ++ imm.extractLsb' 10 1, rs1 := imm.extractLsb' 14 5,
    f3 := imm.extractLsb' 11 3, rd := rd, op := op }

/-- The CR format (48_c.md R804). -/
def encCr (op : BitVec 2) (f3 : BitVec 3) (b12 : BitVec 1) (r1 r2 : RegNum) : CParts :=
  { f3 := f3, b12 := b12, r1 := r1, r2 := r2, op := op }

/-- The CI format, also the CB shifts and C.ANDI (48_c.md R804). -/
def encCi (op : BitVec 2) (f3 : BitVec 3) (r1 : RegNum) (imm : BitVec 6) : CParts :=
  { f3 := f3, b12 := imm.extractLsb' 5 1, r1 := r1, r2 := imm.extractLsb' 0 5, op := op }

/-- C.ADDI16SP (48_c.md R844). -/
def encC16sp (op : BitVec 2) (f3 : BitVec 3) (imm : BitVec 6) : CParts :=
  { f3 := f3, b12 := imm.extractLsb' 5 1, r1 := 2,
    r2 := imm.extractLsb' 0 1 ++ imm.extractLsb' 2 1 ++ imm.extractLsb' 3 2 ++ imm.extractLsb' 1 1, op := op }

/-- C.LWSP and C.FLWSP (48_c.md R810). -/
def encClwsp (op : BitVec 2) (f3 : BitVec 3) (rd : RegNum) (imm : BitVec 6) : CParts :=
  { f3 := f3, b12 := imm.extractLsb' 3 1, r1 := rd,
    r2 := imm.extractLsb' 0 3 ++ imm.extractLsb' 4 2, op := op }

/-- C.LDSP and C.FLDSP (48_c.md R811). -/
def encCldsp (op : BitVec 2) (f3 : BitVec 3) (rd : RegNum) (imm : BitVec 6) : CParts :=
  { f3 := f3, b12 := imm.extractLsb' 2 1, r1 := rd,
    r2 := imm.extractLsb' 0 2 ++ imm.extractLsb' 3 3, op := op }

/-- C.SWSP and C.FSWSP (48_c.md R814). -/
def encCswsp (op : BitVec 2) (f3 : BitVec 3) (rs2 : RegNum) (imm : BitVec 6) : CParts :=
  { f3 := f3, b12 := imm.extractLsb' 3 1, r1 := imm.extractLsb' 0 3 ++ imm.extractLsb' 4 2,
    r2 := rs2, op := op }

/-- C.SDSP and C.FSDSP (48_c.md R815). -/
def encCsdsp (op : BitVec 2) (f3 : BitVec 3) (rs2 : RegNum) (imm : BitVec 6) : CParts :=
  { f3 := f3, b12 := imm.extractLsb' 2 1, r1 := imm.extractLsb' 0 2 ++ imm.extractLsb' 3 3,
    r2 := rs2, op := op }

/-- The CIW format: C.ADDI4SPN (48_c.md R845). -/
def encCiw (op : BitVec 2) (f3 : BitVec 3) (rd : CRegNum) (imm : BitVec 8) : CParts :=
  { f3 := f3, b12 := imm.extractLsb' 3 1, r1 := imm.extractLsb' 2 1 ++ imm.extractLsb' 4 4,
    r2 := imm.extractLsb' 0 1 ++ imm.extractLsb' 1 1 ++ rd, op := op }

/-- The CL and CS formats of a word: the data register, the base register (48_c.md R818, R822). -/
def encClw (op : BitVec 2) (f3 : BitVec 3) (data base : CRegNum) (imm : BitVec 5) : CParts :=
  { f3 := f3, b12 := imm.extractLsb' 3 1, r1 := imm.extractLsb' 1 2 ++ base,
    r2 := imm.extractLsb' 0 1 ++ imm.extractLsb' 4 1 ++ data, op := op }

/-- The CL and CS formats of a double word (48_c.md R819, R823). -/
def encCld (op : BitVec 2) (f3 : BitVec 3) (data base : CRegNum) (imm : BitVec 5) : CParts :=
  { f3 := f3, b12 := imm.extractLsb' 2 1, r1 := imm.extractLsb' 0 2 ++ base,
    r2 := imm.extractLsb' 3 2 ++ data, op := op }

/-- The CA format (48_c.md R852 to R857). -/
def encCa (op : BitVec 2) (f3 : BitVec 3) (b12 : BitVec 1) (f2 : BitVec 2) (rd rs2 : CRegNum) : CParts :=
  { f3 := f3, b12 := b12, r1 := 3#2 ++ rd, r2 := f2 ++ rs2, op := op }

/-- The CB format: C.BEQZ, C.BNEZ (48_c.md R834). -/
def encCb (op : BitVec 2) (f3 : BitVec 3) (rs1 : CRegNum) (off : BitVec 8) : CParts :=
  { f3 := f3, b12 := off.extractLsb' 7 1, r1 := off.extractLsb' 2 2 ++ rs1,
    r2 := off.extractLsb' 5 2 ++ off.extractLsb' 0 2 ++ off.extractLsb' 4 1, op := op }

/-- The CJ format (48_c.md R830). -/
def encCj (op : BitVec 2) (f3 : BitVec 3) (off : BitVec 11) : CParts :=
  { f3 := f3, b12 := off.extractLsb' 10 1,
    r1 := off.extractLsb' 3 1 ++ off.extractLsb' 7 2 ++ off.extractLsb' 9 1 ++ off.extractLsb' 5 1,
    r2 := off.extractLsb' 6 1 ++ off.extractLsb' 0 3 ++ off.extractLsb' 4 1, op := op }

/-- The word of an instruction; a 16-bit instruction in the low half, the high half zero. The opcode,
funct and constant fields are those of the instruction's row of spec/opcode_table.json. -/
def encode : Instr → InstrWord
  | .lui rd imm => (encU 55 rd imm).word
  | .auipc rd imm => (encU 23 rd imm).word
  | .jal rd imm => (encJ 111 rd imm).word
  | .jalr rd rs1 imm => (encI 103 0 rd rs1 imm).word
  | .beq rs1 rs2 imm => (encB 99 0 rs1 rs2 imm).word
  | .bne rs1 rs2 imm => (encB 99 1 rs1 rs2 imm).word
  | .blt rs1 rs2 imm => (encB 99 4 rs1 rs2 imm).word
  | .bge rs1 rs2 imm => (encB 99 5 rs1 rs2 imm).word
  | .bltu rs1 rs2 imm => (encB 99 6 rs1 rs2 imm).word
  | .bgeu rs1 rs2 imm => (encB 99 7 rs1 rs2 imm).word
  | .lb rd rs1 imm => (encI 3 0 rd rs1 imm).word
  | .lh rd rs1 imm => (encI 3 1 rd rs1 imm).word
  | .lw rd rs1 imm => (encI 3 2 rd rs1 imm).word
  | .lbu rd rs1 imm => (encI 3 4 rd rs1 imm).word
  | .lhu rd rs1 imm => (encI 3 5 rd rs1 imm).word
  | .sb rs2 rs1 imm => (encS 35 0 rs2 rs1 imm).word
  | .sh rs2 rs1 imm => (encS 35 1 rs2 rs1 imm).word
  | .sw rs2 rs1 imm => (encS 35 2 rs2 rs1 imm).word
  | .addi rd rs1 imm => (encI 19 0 rd rs1 imm).word
  | .slti rd rs1 imm => (encI 19 2 rd rs1 imm).word
  | .sltiu rd rs1 imm => (encI 19 3 rd rs1 imm).word
  | .xori rd rs1 imm => (encI 19 4 rd rs1 imm).word
  | .ori rd rs1 imm => (encI 19 6 rd rs1 imm).word
  | .andi rd rs1 imm => (encI 19 7 rd rs1 imm).word
  | .slli rd rs1 shamt => (encI 19 1 rd rs1 (0#6 ++ shamt)).word
  | .srli rd rs1 shamt => (encI 19 5 rd rs1 (0#6 ++ shamt)).word
  | .srai rd rs1 shamt => (encI 19 5 rd rs1 (16#6 ++ shamt)).word
  | .add rd rs1 rs2 => (encR 51 0 0 rd rs1 rs2).word
  | .sub rd rs1 rs2 => (encR 51 0 32 rd rs1 rs2).word
  | .sll rd rs1 rs2 => (encR 51 1 0 rd rs1 rs2).word
  | .slt rd rs1 rs2 => (encR 51 2 0 rd rs1 rs2).word
  | .sltu rd rs1 rs2 => (encR 51 3 0 rd rs1 rs2).word
  | .xor rd rs1 rs2 => (encR 51 4 0 rd rs1 rs2).word
  | .srl rd rs1 rs2 => (encR 51 5 0 rd rs1 rs2).word
  | .sra rd rs1 rs2 => (encR 51 5 32 rd rs1 rs2).word
  | .or rd rs1 rs2 => (encR 51 6 0 rd rs1 rs2).word
  | .and rd rs1 rs2 => (encR 51 7 0 rd rs1 rs2).word
  | .fence fm pred succ rs1 rd => (encI 15 0 rd rs1 (fm ++ pred ++ succ)).word
  | .fenceTso => 0x8330000F#32
  | .pause => 0x0100000F#32
  | .ecall => 0x00000073#32
  | .ebreak => 0x00100073#32
  | .ntlP1 => 0x00200033#32
  | .ntlPall => 0x00300033#32
  | .ntlS1 => 0x00400033#32
  | .ntlAll => 0x00500033#32
  | .lwu rd rs1 imm => (encI 3 6 rd rs1 imm).word
  | .ld rd rs1 imm => (encI 3 3 rd rs1 imm).word
  | .sd rs2 rs1 imm => (encS 35 3 rs2 rs1 imm).word
  | .addiw rd rs1 imm => (encI 27 0 rd rs1 imm).word
  | .slliw rd rs1 shamt => (encR 27 1 0 rd rs1 shamt).word
  | .srliw rd rs1 shamt => (encR 27 5 0 rd rs1 shamt).word
  | .sraiw rd rs1 shamt => (encR 27 5 32 rd rs1 shamt).word
  | .addw rd rs1 rs2 => (encR 59 0 0 rd rs1 rs2).word
  | .subw rd rs1 rs2 => (encR 59 0 32 rd rs1 rs2).word
  | .sllw rd rs1 rs2 => (encR 59 1 0 rd rs1 rs2).word
  | .srlw rd rs1 rs2 => (encR 59 5 0 rd rs1 rs2).word
  | .sraw rd rs1 rs2 => (encR 59 5 32 rd rs1 rs2).word
  | .fenceI imm rs1 rd => (encI 15 1 rd rs1 imm).word
  | .csrrw rd csr rs1 => (encI 115 1 rd rs1 csr).word
  | .csrrs rd csr rs1 => (encI 115 2 rd rs1 csr).word
  | .csrrc rd csr rs1 => (encI 115 3 rd rs1 csr).word
  | .csrrwi rd csr uimm => (encI 115 5 rd uimm csr).word
  | .csrrsi rd csr uimm => (encI 115 6 rd uimm csr).word
  | .csrrci rd csr uimm => (encI 115 7 rd uimm csr).word
  | .mul rd rs1 rs2 => (encR 51 0 1 rd rs1 rs2).word
  | .mulh rd rs1 rs2 => (encR 51 1 1 rd rs1 rs2).word
  | .mulhsu rd rs1 rs2 => (encR 51 2 1 rd rs1 rs2).word
  | .mulhu rd rs1 rs2 => (encR 51 3 1 rd rs1 rs2).word
  | .div rd rs1 rs2 => (encR 51 4 1 rd rs1 rs2).word
  | .divu rd rs1 rs2 => (encR 51 5 1 rd rs1 rs2).word
  | .rem rd rs1 rs2 => (encR 51 6 1 rd rs1 rs2).word
  | .remu rd rs1 rs2 => (encR 51 7 1 rd rs1 rs2).word
  | .mulw rd rs1 rs2 => (encR 59 0 1 rd rs1 rs2).word
  | .divw rd rs1 rs2 => (encR 59 4 1 rd rs1 rs2).word
  | .divuw rd rs1 rs2 => (encR 59 5 1 rd rs1 rs2).word
  | .remw rd rs1 rs2 => (encR 59 6 1 rd rs1 rs2).word
  | .remuw rd rs1 rs2 => (encR 59 7 1 rd rs1 rs2).word
  | .lrW rd rs1 aq rl => (encR 47 2 (2#5 ++ aq ++ rl) rd rs1 0).word
  | .scW rd rs1 rs2 aq rl => (encR 47 2 (3#5 ++ aq ++ rl) rd rs1 rs2).word
  | .amoswapW rd rs1 rs2 aq rl => (encR 47 2 (1#5 ++ aq ++ rl) rd rs1 rs2).word
  | .amoaddW rd rs1 rs2 aq rl => (encR 47 2 (0#5 ++ aq ++ rl) rd rs1 rs2).word
  | .amoxorW rd rs1 rs2 aq rl => (encR 47 2 (4#5 ++ aq ++ rl) rd rs1 rs2).word
  | .amoandW rd rs1 rs2 aq rl => (encR 47 2 (12#5 ++ aq ++ rl) rd rs1 rs2).word
  | .amoorW rd rs1 rs2 aq rl => (encR 47 2 (8#5 ++ aq ++ rl) rd rs1 rs2).word
  | .amominW rd rs1 rs2 aq rl => (encR 47 2 (16#5 ++ aq ++ rl) rd rs1 rs2).word
  | .amomaxW rd rs1 rs2 aq rl => (encR 47 2 (20#5 ++ aq ++ rl) rd rs1 rs2).word
  | .amominuW rd rs1 rs2 aq rl => (encR 47 2 (24#5 ++ aq ++ rl) rd rs1 rs2).word
  | .amomaxuW rd rs1 rs2 aq rl => (encR 47 2 (28#5 ++ aq ++ rl) rd rs1 rs2).word
  | .lrD rd rs1 aq rl => (encR 47 3 (2#5 ++ aq ++ rl) rd rs1 0).word
  | .scD rd rs1 rs2 aq rl => (encR 47 3 (3#5 ++ aq ++ rl) rd rs1 rs2).word
  | .amoswapD rd rs1 rs2 aq rl => (encR 47 3 (1#5 ++ aq ++ rl) rd rs1 rs2).word
  | .amoaddD rd rs1 rs2 aq rl => (encR 47 3 (0#5 ++ aq ++ rl) rd rs1 rs2).word
  | .amoxorD rd rs1 rs2 aq rl => (encR 47 3 (4#5 ++ aq ++ rl) rd rs1 rs2).word
  | .amoandD rd rs1 rs2 aq rl => (encR 47 3 (12#5 ++ aq ++ rl) rd rs1 rs2).word
  | .amoorD rd rs1 rs2 aq rl => (encR 47 3 (8#5 ++ aq ++ rl) rd rs1 rs2).word
  | .amominD rd rs1 rs2 aq rl => (encR 47 3 (16#5 ++ aq ++ rl) rd rs1 rs2).word
  | .amomaxD rd rs1 rs2 aq rl => (encR 47 3 (20#5 ++ aq ++ rl) rd rs1 rs2).word
  | .amominuD rd rs1 rs2 aq rl => (encR 47 3 (24#5 ++ aq ++ rl) rd rs1 rs2).word
  | .amomaxuD rd rs1 rs2 aq rl => (encR 47 3 (28#5 ++ aq ++ rl) rd rs1 rs2).word
  | .flw rd rs1 imm => (encI 7 2 rd rs1 imm).word
  | .fsw rs2 rs1 imm => (encS 39 2 rs2 rs1 imm).word
  | .fmaddS rd rs1 rs2 rs3 rm => (encR 67 rm (rs3 ++ 0#2) rd rs1 rs2).word
  | .fmsubS rd rs1 rs2 rs3 rm => (encR 71 rm (rs3 ++ 0#2) rd rs1 rs2).word
  | .fnmsubS rd rs1 rs2 rs3 rm => (encR 75 rm (rs3 ++ 0#2) rd rs1 rs2).word
  | .fnmaddS rd rs1 rs2 rs3 rm => (encR 79 rm (rs3 ++ 0#2) rd rs1 rs2).word
  | .faddS rd rs1 rs2 rm => (encR 83 rm 0 rd rs1 rs2).word
  | .fsubS rd rs1 rs2 rm => (encR 83 rm 4 rd rs1 rs2).word
  | .fmulS rd rs1 rs2 rm => (encR 83 rm 8 rd rs1 rs2).word
  | .fdivS rd rs1 rs2 rm => (encR 83 rm 12 rd rs1 rs2).word
  | .fsqrtS rd rs1 rm => (encR 83 rm 44 rd rs1 0).word
  | .fsgnjS rd rs1 rs2 => (encR 83 0 16 rd rs1 rs2).word
  | .fsgnjnS rd rs1 rs2 => (encR 83 1 16 rd rs1 rs2).word
  | .fsgnjxS rd rs1 rs2 => (encR 83 2 16 rd rs1 rs2).word
  | .fminS rd rs1 rs2 => (encR 83 0 20 rd rs1 rs2).word
  | .fmaxS rd rs1 rs2 => (encR 83 1 20 rd rs1 rs2).word
  | .fcvtWS rd rs1 rm => (encR 83 rm 96 rd rs1 0).word
  | .fcvtWuS rd rs1 rm => (encR 83 rm 96 rd rs1 1).word
  | .fcvtLS rd rs1 rm => (encR 83 rm 96 rd rs1 2).word
  | .fcvtLuS rd rs1 rm => (encR 83 rm 96 rd rs1 3).word
  | .fcvtSW rd rs1 rm => (encR 83 rm 104 rd rs1 0).word
  | .fcvtSWu rd rs1 rm => (encR 83 rm 104 rd rs1 1).word
  | .fcvtSL rd rs1 rm => (encR 83 rm 104 rd rs1 2).word
  | .fcvtSLu rd rs1 rm => (encR 83 rm 104 rd rs1 3).word
  | .feqS rd rs1 rs2 => (encR 83 2 80 rd rs1 rs2).word
  | .fltS rd rs1 rs2 => (encR 83 1 80 rd rs1 rs2).word
  | .fleS rd rs1 rs2 => (encR 83 0 80 rd rs1 rs2).word
  | .fclassS rd rs1 => (encR 83 1 112 rd rs1 0).word
  | .fmvXW rd rs1 => (encR 83 0 112 rd rs1 0).word
  | .fmvWX rd rs1 => (encR 83 0 120 rd rs1 0).word
  | .fld rd rs1 imm => (encI 7 3 rd rs1 imm).word
  | .fsd rs2 rs1 imm => (encS 39 3 rs2 rs1 imm).word
  | .fmaddD rd rs1 rs2 rs3 rm => (encR 67 rm (rs3 ++ 1#2) rd rs1 rs2).word
  | .fmsubD rd rs1 rs2 rs3 rm => (encR 71 rm (rs3 ++ 1#2) rd rs1 rs2).word
  | .fnmsubD rd rs1 rs2 rs3 rm => (encR 75 rm (rs3 ++ 1#2) rd rs1 rs2).word
  | .fnmaddD rd rs1 rs2 rs3 rm => (encR 79 rm (rs3 ++ 1#2) rd rs1 rs2).word
  | .faddD rd rs1 rs2 rm => (encR 83 rm 1 rd rs1 rs2).word
  | .fsubD rd rs1 rs2 rm => (encR 83 rm 5 rd rs1 rs2).word
  | .fmulD rd rs1 rs2 rm => (encR 83 rm 9 rd rs1 rs2).word
  | .fdivD rd rs1 rs2 rm => (encR 83 rm 13 rd rs1 rs2).word
  | .fsqrtD rd rs1 rm => (encR 83 rm 45 rd rs1 0).word
  | .fsgnjD rd rs1 rs2 => (encR 83 0 17 rd rs1 rs2).word
  | .fsgnjnD rd rs1 rs2 => (encR 83 1 17 rd rs1 rs2).word
  | .fsgnjxD rd rs1 rs2 => (encR 83 2 17 rd rs1 rs2).word
  | .fminD rd rs1 rs2 => (encR 83 0 21 rd rs1 rs2).word
  | .fmaxD rd rs1 rs2 => (encR 83 1 21 rd rs1 rs2).word
  | .fcvtWD rd rs1 rm => (encR 83 rm 97 rd rs1 0).word
  | .fcvtWuD rd rs1 rm => (encR 83 rm 97 rd rs1 1).word
  | .fcvtLD rd rs1 rm => (encR 83 rm 97 rd rs1 2).word
  | .fcvtLuD rd rs1 rm => (encR 83 rm 97 rd rs1 3).word
  | .fcvtDW rd rs1 rm => (encR 83 rm 105 rd rs1 0).word
  | .fcvtDWu rd rs1 rm => (encR 83 rm 105 rd rs1 1).word
  | .fcvtDL rd rs1 rm => (encR 83 rm 105 rd rs1 2).word
  | .fcvtDLu rd rs1 rm => (encR 83 rm 105 rd rs1 3).word
  | .feqD rd rs1 rs2 => (encR 83 2 81 rd rs1 rs2).word
  | .fltD rd rs1 rs2 => (encR 83 1 81 rd rs1 rs2).word
  | .fleD rd rs1 rs2 => (encR 83 0 81 rd rs1 rs2).word
  | .fclassD rd rs1 => (encR 83 1 113 rd rs1 0).word
  | .fcvtSD rd rs1 rm => (encR 83 rm 32 rd rs1 1).word
  | .fcvtDS rd rs1 rm => (encR 83 rm 33 rd rs1 0).word
  | .fmvXD rd rs1 => (encR 83 0 113 rd rs1 0).word
  | .fmvDX rd rs1 => (encR 83 0 121 rd rs1 0).word
  | .flq rd rs1 imm => (encI 7 4 rd rs1 imm).word
  | .fsq rs2 rs1 imm => (encS 39 4 rs2 rs1 imm).word
  | .fmaddQ rd rs1 rs2 rs3 rm => (encR 67 rm (rs3 ++ 3#2) rd rs1 rs2).word
  | .fmsubQ rd rs1 rs2 rs3 rm => (encR 71 rm (rs3 ++ 3#2) rd rs1 rs2).word
  | .fnmsubQ rd rs1 rs2 rs3 rm => (encR 75 rm (rs3 ++ 3#2) rd rs1 rs2).word
  | .fnmaddQ rd rs1 rs2 rs3 rm => (encR 79 rm (rs3 ++ 3#2) rd rs1 rs2).word
  | .faddQ rd rs1 rs2 rm => (encR 83 rm 3 rd rs1 rs2).word
  | .fsubQ rd rs1 rs2 rm => (encR 83 rm 7 rd rs1 rs2).word
  | .fmulQ rd rs1 rs2 rm => (encR 83 rm 11 rd rs1 rs2).word
  | .fdivQ rd rs1 rs2 rm => (encR 83 rm 15 rd rs1 rs2).word
  | .fsqrtQ rd rs1 rm => (encR 83 rm 47 rd rs1 0).word
  | .fsgnjQ rd rs1 rs2 => (encR 83 0 19 rd rs1 rs2).word
  | .fsgnjnQ rd rs1 rs2 => (encR 83 1 19 rd rs1 rs2).word
  | .fsgnjxQ rd rs1 rs2 => (encR 83 2 19 rd rs1 rs2).word
  | .fminQ rd rs1 rs2 => (encR 83 0 23 rd rs1 rs2).word
  | .fmaxQ rd rs1 rs2 => (encR 83 1 23 rd rs1 rs2).word
  | .fcvtWQ rd rs1 rm => (encR 83 rm 99 rd rs1 0).word
  | .fcvtWuQ rd rs1 rm => (encR 83 rm 99 rd rs1 1).word
  | .fcvtLQ rd rs1 rm => (encR 83 rm 99 rd rs1 2).word
  | .fcvtLuQ rd rs1 rm => (encR 83 rm 99 rd rs1 3).word
  | .fcvtQW rd rs1 rm => (encR 83 rm 107 rd rs1 0).word
  | .fcvtQWu rd rs1 rm => (encR 83 rm 107 rd rs1 1).word
  | .fcvtQL rd rs1 rm => (encR 83 rm 107 rd rs1 2).word
  | .fcvtQLu rd rs1 rm => (encR 83 rm 107 rd rs1 3).word
  | .feqQ rd rs1 rs2 => (encR 83 2 83 rd rs1 rs2).word
  | .fltQ rd rs1 rs2 => (encR 83 1 83 rd rs1 rs2).word
  | .fleQ rd rs1 rs2 => (encR 83 0 83 rd rs1 rs2).word
  | .fclassQ rd rs1 => (encR 83 1 115 rd rs1 0).word
  | .fcvtSQ rd rs1 rm => (encR 83 rm 32 rd rs1 3).word
  | .fcvtQS rd rs1 rm => (encR 83 rm 35 rd rs1 0).word
  | .fcvtDQ rd rs1 rm => (encR 83 rm 33 rd rs1 3).word
  | .fcvtQD rd rs1 rm => (encR 83 rm 35 rd rs1 1).word
  | .flh rd rs1 imm => (encI 7 1 rd rs1 imm).word
  | .fsh rs2 rs1 imm => (encS 39 1 rs2 rs1 imm).word
  | .fmaddH rd rs1 rs2 rs3 rm => (encR 67 rm (rs3 ++ 2#2) rd rs1 rs2).word
  | .fmsubH rd rs1 rs2 rs3 rm => (encR 71 rm (rs3 ++ 2#2) rd rs1 rs2).word
  | .fnmsubH rd rs1 rs2 rs3 rm => (encR 75 rm (rs3 ++ 2#2) rd rs1 rs2).word
  | .fnmaddH rd rs1 rs2 rs3 rm => (encR 79 rm (rs3 ++ 2#2) rd rs1 rs2).word
  | .faddH rd rs1 rs2 rm => (encR 83 rm 2 rd rs1 rs2).word
  | .fsubH rd rs1 rs2 rm => (encR 83 rm 6 rd rs1 rs2).word
  | .fmulH rd rs1 rs2 rm => (encR 83 rm 10 rd rs1 rs2).word
  | .fdivH rd rs1 rs2 rm => (encR 83 rm 14 rd rs1 rs2).word
  | .fsqrtH rd rs1 rm => (encR 83 rm 46 rd rs1 0).word
  | .fsgnjH rd rs1 rs2 => (encR 83 0 18 rd rs1 rs2).word
  | .fsgnjnH rd rs1 rs2 => (encR 83 1 18 rd rs1 rs2).word
  | .fsgnjxH rd rs1 rs2 => (encR 83 2 18 rd rs1 rs2).word
  | .fminH rd rs1 rs2 => (encR 83 0 22 rd rs1 rs2).word
  | .fmaxH rd rs1 rs2 => (encR 83 1 22 rd rs1 rs2).word
  | .fcvtWH rd rs1 rm => (encR 83 rm 98 rd rs1 0).word
  | .fcvtWuH rd rs1 rm => (encR 83 rm 98 rd rs1 1).word
  | .fcvtLH rd rs1 rm => (encR 83 rm 98 rd rs1 2).word
  | .fcvtLuH rd rs1 rm => (encR 83 rm 98 rd rs1 3).word
  | .fcvtHW rd rs1 rm => (encR 83 rm 106 rd rs1 0).word
  | .fcvtHWu rd rs1 rm => (encR 83 rm 106 rd rs1 1).word
  | .fcvtHL rd rs1 rm => (encR 83 rm 106 rd rs1 2).word
  | .fcvtHLu rd rs1 rm => (encR 83 rm 106 rd rs1 3).word
  | .feqH rd rs1 rs2 => (encR 83 2 82 rd rs1 rs2).word
  | .fltH rd rs1 rs2 => (encR 83 1 82 rd rs1 rs2).word
  | .fleH rd rs1 rs2 => (encR 83 0 82 rd rs1 rs2).word
  | .fclassH rd rs1 => (encR 83 1 114 rd rs1 0).word
  | .fcvtSH rd rs1 rm => (encR 83 rm 32 rd rs1 2).word
  | .fcvtHS rd rs1 rm => (encR 83 rm 34 rd rs1 0).word
  | .fcvtDH rd rs1 rm => (encR 83 rm 33 rd rs1 2).word
  | .fcvtHD rd rs1 rm => (encR 83 rm 34 rd rs1 1).word
  | .fcvtQH rd rs1 rm => (encR 83 rm 35 rd rs1 2).word
  | .fcvtHQ rd rs1 rm => (encR 83 rm 34 rd rs1 3).word
  | .fmvXH rd rs1 => (encR 83 0 114 rd rs1 0).word
  | .fmvHX rd rs1 => (encR 83 0 122 rd rs1 0).word
  | .cAddi4spn rd imm => (encCiw 0 0 rd imm).word
  | .cFld rd rs1 imm => (encCld 0 1 rd rs1 imm).word
  | .cLw rd rs1 imm => (encClw 0 2 rd rs1 imm).word
  | .cFlw rd rs1 imm => (encClw 0 3 rd rs1 imm).word
  | .cLd rd rs1 imm => (encCld 0 3 rd rs1 imm).word
  | .cFsd rs2 rs1 imm => (encCld 0 5 rs2 rs1 imm).word
  | .cSw rs2 rs1 imm => (encClw 0 6 rs2 rs1 imm).word
  | .cFsw rs2 rs1 imm => (encClw 0 7 rs2 rs1 imm).word
  | .cSd rs2 rs1 imm => (encCld 0 7 rs2 rs1 imm).word
  | .cNop imm => (encCi 1 0 0 imm).word
  | .cAddi rd imm => (encCi 1 0 rd imm).word
  | .cJal off => (encCj 1 1 off).word
  | .cAddiw rd imm => (encCi 1 1 rd imm).word
  | .cLi rd imm => (encCi 1 2 rd imm).word
  | .cAddi16sp imm => (encC16sp 1 3 imm).word
  | .cLui rd imm => (encCi 1 3 rd imm).word
  | .cSrli rd shamt => (encCi 1 4 (0#2 ++ rd) shamt).word
  | .cSrai rd shamt => (encCi 1 4 (1#2 ++ rd) shamt).word
  | .cAndi rd imm => (encCi 1 4 (2#2 ++ rd) imm).word
  | .cSub rd rs2 => (encCa 1 4 0 0 rd rs2).word
  | .cXor rd rs2 => (encCa 1 4 0 1 rd rs2).word
  | .cOr rd rs2 => (encCa 1 4 0 2 rd rs2).word
  | .cAnd rd rs2 => (encCa 1 4 0 3 rd rs2).word
  | .cSubw rd rs2 => (encCa 1 4 1 0 rd rs2).word
  | .cAddw rd rs2 => (encCa 1 4 1 1 rd rs2).word
  | .cJ off => (encCj 1 5 off).word
  | .cBeqz rs1 off => (encCb 1 6 rs1 off).word
  | .cBnez rs1 off => (encCb 1 7 rs1 off).word
  | .cSlli rd shamt => (encCi 2 0 rd shamt).word
  | .cFldsp rd imm => (encCldsp 2 1 rd imm).word
  | .cLwsp rd imm => (encClwsp 2 2 rd imm).word
  | .cFlwsp rd imm => (encClwsp 2 3 rd imm).word
  | .cLdsp rd imm => (encCldsp 2 3 rd imm).word
  | .cJr rs1 => (encCr 2 4 0 rs1 0).word
  | .cMv rd rs2 => (encCr 2 4 0 rd rs2).word
  | .cEbreak => 0x9002#32
  | .cJalr rs1 => (encCr 2 4 1 rs1 0).word
  | .cAdd rd rs2 => (encCr 2 4 1 rd rs2).word
  | .cFsdsp rs2 imm => (encCsdsp 2 5 rs2 imm).word
  | .cSwsp rs2 imm => (encCswsp 2 6 rs2 imm).word
  | .cFswsp rs2 imm => (encCswsp 2 7 rs2 imm).word
  | .cSdsp rs2 imm => (encCsdsp 2 7 rs2 imm).word
  | .cNtlP1 => 0x900A#32
  | .cNtlPall => 0x900E#32
  | .cNtlS1 => 0x9012#32
  | .cNtlAll => 0x9016#32

/-- The length of an instruction in bytes (R192). -/
def Instr.len (i : Instr) : Nat := wordLen (encode i)

end Sys2Proof
end

