-- ==== Sys2Proof/Machine/State.lean ====
section
/-! DEFINITION. The state of the machine: one hart, its memory, its configuration (10_state.md R40;
70_reset_and_hazards.md R990), as plain data; the faults and refusals of a step; the state at reset. -/

namespace Sys2Proof.Machine

/-- Memory as the listed (address, byte) pairs: addresses strictly rising, no entry equal to what an
unlisted address reads as (`Memory.wf`). -/
abbrev Memory := List Host.Cell

/-- What a byte that nothing has written reads as. The launch contents of memory are a parameter of
the environment (R990, `INIT_MEM`); DESIGN CHOICE (entry 5): zero. -/
def Memory.unlisted : Byte := 0

/-- Every address listed is at least `lo`, the addresses rise strictly, and no entry holds the
unlisted byte. -/
def Memory.wfFrom : Nat → List Host.Cell → Bool
  | _, [] => true
  | lo, (a, b) :: rest => decide (lo ≤ a) && (b != Memory.unlisted) && Memory.wfFrom (a + 1) rest

/-- The canonical form of memory: equal memories are equal lists. -/
def Memory.wf (m : List Host.Cell) : Bool := Memory.wfFrom 0 m

/-- A load reservation (10_state.md R66; 44_a_zam.md R462): the blocks of the reservation set and the bytes
the LR accessed, `[lrAddr, lrAddr + lrLen)`. -/
structure Reservation where
  set : List ByteRange
  lrAddr : Nat
  lrLen : Nat
deriving DecidableEq, Repr

/-- The progress of a constrained LR/SC loop (44_a_zam.md R467): what decides when its SC must succeed. The
model's own (entry 36). -/
structure LoopWatch where
  /-- the draw at which the loop was entered -/
  since : Nat
  /-- the pc of the LR -/
  lrPc : Nat
  /-- the address and the size of the latest LR -/
  lrAddr : Nat
  lrLen : Nat
  /-- the address and the length of each instruction executed in the loop -/
  code : List (Nat × Nat)
  /-- the pc of the latest instruction of the loop -/
  last : Nat
  /-- the SC has failed and the code to retry runs -/
  retrying : Bool
  /-- how many times the SC has failed -/
  failures : Nat
deriving DecidableEq, Repr

/-- An access delivered to the devices behind I/O regions (20_memory.md R112): the I/O bytes of one
instruction's read (with the values the devices supplied) or write. The list of them is the model's
own (entry 22). -/
inductive IoEvent where
  | read (bytes : List Host.Cell)
  | write (bytes : List Host.Cell)
deriving DecidableEq, Repr

/-- The state of the machine (10_state.md R40). -/
structure State where
  /-- the configuration (00_scope.md R12): no instruction changes it -/
  cfg : Cfg
  /-- the integer registers; the low XLEN bits count, `x0` is read and written through the accessors (R41) -/
  x : Vector Word 32
  /-- the program counter; the low XLEN bits count (R45) -/
  pc : Word
  /-- the floating-point registers; the low FLEN bits count (R55) -/
  f : Vector FWord 32
  /-- `fcsr[7:5]` (R54) -/
  frm : BitVec 3
  /-- `fcsr[4:0]`: NV, DZ, OF, UF, NX from bit 4 to bit 0 (R53) -/
  fflags : BitVec 5
  /-- the cycle counter (R61) -/
  cycle : BitVec 64
  /-- the real-time clock (R62) -/
  time : BitVec 64
  /-- instructions retired (R63) -/
  instret : BitVec 64
  /-- `hpmcounter3` to `hpmcounter31` (R64) -/
  hpm : Vector (BitVec 64) 29
  /-- the load reservation (R66) -/
  reservation : Option Reservation
  /-- the constrained LR/SC loop the hart may be in (the model's own, entry 36) -/
  watch : Option LoopWatch
  /-- the bytes of main memory (R70) -/
  mem : Memory
  /-- the older values, since the last FENCE.I, of bytes stored to: a fetch may still return them (R67) -/
  stale : List Host.Cell
  /-- the trap taken and not yet resolved by the environment (60_exceptions.md R945) -/
  trap : Option TrapRecord
  /-- what was delivered to I/O devices, newest first (the model's own, entry 22) -/
  io : List IoEvent
  /-- the index at which this step reads the free values (the model's own, entry 33) -/
  draw : Nat
deriving DecidableEq, Repr

/-- Why the machine stops. -/
inductive Fault where
  /-- Raised by a step that finds a trap pending under `TRAP_POLICY = fatal`: the hart has stopped
  with this record (60_exceptions.md R945 (a)). Safe: the spec says the hart takes no further step. -/
  | fatalTrap (r : TrapRecord)
  /-- Raised by a step that finds a trap pending under `TRAP_POLICY = handled` when the environment's
  handler answers *stop* (60_exceptions.md R945 (b)). Safe: the spec says the hart stops. -/
  | handlerStopped (r : TrapRecord)
deriving DecidableEq, Repr

/-- Why an instruction has no meaning. -/
inductive Refusal where
  /-- Raised by `exec` for an instruction the model gives no meaning yet. Safe: nothing is claimed of it. -/
  | notModelled (mnemonic : String)
deriving DecidableEq, Repr

/-- The outcome of a step of this machine. -/
abbrev Res := Host.Outcome State Fault Refusal

/-- The launch parameters of one hart (00_scope.md R12; 70_reset_and_hazards.md R990, D6): the spec fixes none
of them. `mem` is `INIT_MEM` in canonical form. -/
structure Launch where
  entry : Word
  x : Vector Word 32
  f : Vector FWord 32
  frm : BitVec 3
  fflags : BitVec 5
  cycle : BitVec 64
  time : BitVec 64
  instret : BitVec 64
  hpm : Vector (BitVec 64) 29
  mem : Memory
deriving DecidableEq, Repr

/-- The machine at launch (70_reset_and_hazards.md R990): what the parameters give, no reservation, no older
instruction byte to fetch, no trap, nothing delivered. -/
def State.launch (cfg : Cfg) (l : Launch) : State :=
  { cfg := cfg, x := l.x, pc := l.entry, f := l.f, frm := l.frm, fflags := l.fflags, cycle := l.cycle,
    time := l.time, instret := l.instret, hpm := l.hpm, reservation := none, watch := none, mem := l.mem,
    stale := [], trap := none, io := [], draw := 0 }

/-- The launch parameters at reset: every register and counter zero, memory with nothing listed, a given entry
point. DESIGN CHOICE (entries 3, 5). -/
def Launch.zero (entry : Word) : Launch :=
  { entry := entry, x := Vector.replicate 32 0, f := Vector.replicate 32 0, frm := 0, fflags := 0, cycle := 0,
    time := 0, instret := 0, hpm := Vector.replicate 29 0, mem := [] }

/-- The machine right after reset: the launch state of `Config.reset` at address 0 (DESIGN CHOICE,
entries 2, 3 and 4; the spec makes every one of these a launch parameter, R990). -/
def State.reset : State := State.launch Config.reset (Launch.zero 0)

end Sys2Proof.Machine
end

