-- ==== Sys2Proof/Machine/Flags.lean ====
section
/-! DEFINITION. The flags of the machine: the five accrued floating-point exception flags `fflags`
(10_state.md R52, R53, R60). There are no integer condition codes (R48). -/

namespace Sys2Proof.Machine

/-- A set of floating-point exception flags: bit 4 NV, 3 DZ, 2 OF, 1 UF, 0 NX (10_state.md R52; the bit
assignment is PRESUMED, entry 25). -/
abbrev FpFlags := BitVec 5

/-- No flag. -/
def flagsNone : FpFlags := 0b00000

/-- NV, invalid operation (46_f.md R577). -/
def flagNV : FpFlags := 0b10000

/-- DZ, divide by zero (46_f.md R577). -/
def flagDZ : FpFlags := 0b01000

/-- OF, overflow (46_f.md R576). -/
def flagOF : FpFlags := 0b00100

/-- UF, underflow (46_f.md R577, R579). -/
def flagUF : FpFlags := 0b00010

/-- NX, inexact (46_f.md R576). -/
def flagNX : FpFlags := 0b00001

/-- A flag if a condition holds. -/
def flagIf (c : Bool) (m : FpFlags) : FpFlags := if c then m else flagsNone

/-- `fflags |= m`: accrue flags; no flag is ever cleared (10_state.md R53, R60). -/
def accrue (m : FpFlags) (s : State) : State := { s with fflags := s.fflags ||| m }

/-- `fcsr` as a CSR read sees it: bits 7:5 `frm`, bits 4:0 `fflags`, every other bit 0 (10_state.md R52). -/
def fcsrValue (s : State) : Word := (s.frm ++ s.fflags).setWidth 64

/-- A write of `fcsr`: bits 7:5 to `frm`, bits 4:0 to `fflags`, every other bit ignored (10_state.md R52). -/
def setFcsr (v : Word) (s : State) : State :=
  { s with frm := v.extractLsb' 5 3, fflags := v.extractLsb' 0 5 }

end Sys2Proof.Machine
end

