-- ==== Sys2Proof/Machine/Operands.lean ====
section
/-! DEFINITION. The operand forms: XLEN-bit values, integer registers, immediates, compressed register
fields, floating-point registers with NaN-boxing or in the integer registers (Zfinx). -/

namespace Sys2Proof.Machine

/-! ### XLEN-bit values -/

/-- The XLEN-bit value held in a word, zero-extended (10_state.md R41): all of it on RV64, the low 32
bits on RV32. -/
def truncX (c : Xlen) (v : Word) : Word :=
  match c with
  | .rv32 => (v.setWidth 32).setWidth 64
  | .rv64 => v

/-- `sext_XLEN` (00_scope.md R18), held zero-extended. -/
def sextX (c : Xlen) {n : Nat} (v : BitVec n) : Word := truncX c (v.signExtend 64)

/-- `zext_XLEN` (00_scope.md R18). -/
def zextX (c : Xlen) {n : Nat} (v : BitVec n) : Word := truncX c (v.setWidth 64)

/-- An operation on two bit vectors of any one width. -/
abbrev AluOp := (w : Nat) → BitVec w → BitVec w → BitVec w

/-- A comparison of two bit vectors of any one width. -/
abbrev CmpOp := (w : Nat) → BitVec w → BitVec w → Bool

/-- An operation taken at width XLEN (40_rv32i_base.md R261). -/
def aluAtXlen (c : Xlen) (op : AluOp) (a b : Word) : Word :=
  match c with
  | .rv32 => (op 32 (a.setWidth 32) (b.setWidth 32)).setWidth 64
  | .rv64 => op 64 a b

/-- A comparison taken at width XLEN (40_rv32i_base.md R293). -/
def cmpAtXlen (c : Xlen) (op : CmpOp) (a b : Word) : Bool :=
  match c with
  | .rv32 => op 32 (a.setWidth 32) (b.setWidth 32)
  | .rv64 => op 64 a b

/-- An operation of a "W" instruction: on the low 32 bits, the 32-bit result sign-extended
(41_rv64i_rv32e_rv128i.md R341). -/
def aluW (c : Xlen) (op : AluOp) (a b : Word) : Word :=
  sextX c (op 32 (a.setWidth 32) (b.setWidth 32))

/-! ### Integer registers and the program counter -/

/-- The program counter, an XLEN-bit value (10_state.md R45). -/
def curPc (s : State) : Word := truncX s.cfg.xlen s.pc

/-- `x[r]`: an XLEN-bit value, 0 for `x0` (10_state.md R41). -/
def readX (r : RegNum) (s : State) : Word :=
  if r = 0 then 0 else truncX s.cfg.xlen (s.x[r.toNat]'(r.isLt))

/-- `x[r] <- v`: the low XLEN bits are written; a write to `x0` is discarded (10_state.md R41). -/
def writeX (r : RegNum) (v : Word) (s : State) : State :=
  if r = 0 then s else { s with x := s.x.set r.toNat (truncX s.cfg.xlen v) r.isLt }

/-- The register a 3-bit compressed field names, x8 to x15 or f8 to f15 (48_c.md R806). -/
def cReg (r : CRegNum) : RegNum := (0b01#2) ++ r

/-! ### Immediates of the 32-bit formats -/

/-- A sign-extended 12-bit immediate: I and S formats (30_encoding.md R203, R204). -/
def imm12 (imm : BitVec 12) : Word := imm.signExtend 64

/-- The B-immediate from `imm[12:1]`: a multiple of 2 (30_encoding.md R205). -/
def immB (imm : BitVec 12) : Word := (imm ++ 0#1).signExtend 64

/-- The U-immediate from `imm[31:12]` (30_encoding.md R206). -/
def immU (imm : BitVec 20) : Word := (imm ++ 0#12).signExtend 64

/-- The J-immediate from `imm[20:1]`: a multiple of 2 (30_encoding.md R207). -/
def immJ (imm : BitVec 20) : Word := (imm ++ 0#1).signExtend 64

/-! ### Immediates of the compressed formats (48_c.md) -/

/-- The sign-extended 6-bit immediate of C.LI, C.ADDI, C.ADDIW, C.ANDI (R839). -/
def cImm6 (imm : BitVec 6) : Word := imm.signExtend 64

/-- The immediate of C.LUI from `nzimm[17:12]` (R841). -/
def cImmLui (imm : BitVec 6) : Word := (imm ++ 0#12).signExtend 64

/-- The immediate of C.ADDI16SP from `nzimm[9:4]` (R844). -/
def cImm16sp (imm : BitVec 6) : Word := (imm ++ 0#4).signExtend 64

/-- The immediate of C.ADDI4SPN from `nzuimm[9:2]`, zero-extended (R845). -/
def cImm4spn (imm : BitVec 8) : Word := (imm ++ 0#2).setWidth 64

/-- The offset of C.LW, C.SW, C.FLW, C.FSW from `uimm[6:2]` (R818). -/
def cOffW (u : BitVec 5) : Word := (u ++ 0#2).setWidth 64

/-- The offset of C.LD, C.SD, C.FLD, C.FSD from `uimm[7:3]` (R819). -/
def cOffD (u : BitVec 5) : Word := (u ++ 0#3).setWidth 64

/-- The offset of C.LWSP, C.SWSP, C.FLWSP, C.FSWSP from `uimm[7:2]` (R810, R814). -/
def cOffWsp (u : BitVec 6) : Word := (u ++ 0#2).setWidth 64

/-- The offset of C.LDSP, C.SDSP, C.FLDSP, C.FSDSP from `uimm[8:3]` (R811, R815). -/
def cOffDsp (u : BitVec 6) : Word := (u ++ 0#3).setWidth 64

/-- The offset of C.J and C.JAL from `off[11:1]` (R830). -/
def cOffJ (off : BitVec 11) : Word := (off ++ 0#1).signExtend 64

/-- The offset of C.BEQZ and C.BNEZ from `off[8:1]` (R834). -/
def cOffB (off : BitVec 8) : Word := (off ++ 0#1).signExtend 64

/-! ### Floating-point formats and registers -/

/-- The four floating-point formats (47_d.md R661). -/
inductive Fmt where
  | h | s | d | q
deriving DecidableEq, Repr

/-- The exponent bits of a format (47_d.md R661). -/
def Fmt.expBits : Fmt → Nat
  | .h => 5
  | .s => 8
  | .d => 11
  | .q => 15

/-- The fraction bits of a format (47_d.md R661). -/
def Fmt.fracBits : Fmt → Nat
  | .h => 10
  | .s => 23
  | .d => 52
  | .q => 112

/-- The width of a format (47_d.md R661). -/
def Fmt.width : Fmt → Nat
  | .h => 16
  | .s => 32
  | .d => 64
  | .q => 128

/-- A value of a format, as bits. -/
abbrev FpBits (t : Fmt) := BitVec t.width

/-- The canonical NaN: positive, only the quiet bit of the significand set (46_f.md R574). -/
def canonicalNaN (t : Fmt) : FpBits t :=
  BitVec.ofNat _ ((2 ^ t.expBits - 1) * 2 ^ t.fracBits + 2 ^ (t.fracBits - 1))

/-- `FLEN`: 32 with F alone, 64 with D, 128 with Q (10_state.md R55). -/
def flen (c : Cfg) : Nat := if c.ext.q then 128 else if c.ext.d then 64 else 32

/-- `f[r]`: the FLEN-bit register (10_state.md R55). -/
def readF (r : RegNum) (s : State) : FWord :=
  (((s.f[r.toNat]'(r.isLt)).setWidth (flen s.cfg)).setWidth 128)

/-- `f[r] <- v`, the low FLEN bits (10_state.md R55). -/
def writeF (r : RegNum) (v : FWord) (s : State) : State :=
  { s with f := s.f.set r.toNat ((v.setWidth (flen s.cfg)).setWidth 128) r.isLt }

/-- The NaN-boxing check: the low bits if every bit of `[FLEN-1:n]` is 1, else the canonical NaN
(10_state.md R58). -/
def unbox (l : Nat) (t : Fmt) (v : FWord) : FpBits t :=
  if v.extractLsb' t.width (l - t.width) = BitVec.allOnes (l - t.width) then v.setWidth t.width
  else canonicalNaN t

/-- NaN-boxing: `1^(FLEN-n) ++ v` (10_state.md R57). -/
def box (l : Nat) (t : Fmt) (v : FpBits t) : FWord :=
  (BitVec.allOnes (l - t.width) ++ v).setWidth 128

/-- A transfer into an `f` register: boxed, bits unmodified (10_state.md R59). -/
def writeFBoxed (t : Fmt) (r : RegNum) (v : FpBits t) (s : State) : State :=
  writeF r (box (flen s.cfg) t v) s

/-- A transfer out of an `f` register: the low bits, no check (10_state.md R59). -/
def readFRaw (t : Fmt) (r : RegNum) (s : State) : FpBits t := (readF r s).setWidth t.width

/-- Whether a value of a format takes an aligned pair of integer registers: a double on RV32 with
Zdinx (49_zfinx_ztso_other.md R908). -/
def usesPair (c : Cfg) (t : Fmt) : Bool :=
  match c.xlen, t with
  | .rv32, .d => true
  | _, _ => false

/-- A floating-point operand: `unbox` of the `f` register, or with Zfinx the integer register's low
bits, or an integer-register pair with `x0` reading as zero throughout (10_state.md R58;
49_zfinx_ztso_other.md R906, R908, R912). -/
def readFp (t : Fmt) (r : RegNum) (s : State) : FpBits t :=
  if s.cfg.ext.zfinx then
    if usesPair s.cfg t then
      if r = 0 then 0
      else (((readX (r + 1) s).setWidth 32) ++ ((readX r s).setWidth 32)).setWidth t.width
    else (readX r s).setWidth t.width
  else unbox (flen s.cfg) t (readF r s)

/-- A floating-point result: boxed into the `f` register, or with Zfinx sign-extended into the integer
register, or written to a pair with `x0` discarding the whole write (10_state.md R57;
49_zfinx_ztso_other.md R906, R908, R912). -/
def writeFp (t : Fmt) (r : RegNum) (v : FpBits t) (s : State) : State :=
  if s.cfg.ext.zfinx then
    if usesPair s.cfg t then
      if r = 0 then s
      else writeX (r + 1) (v.extractLsb' 32 32 |>.setWidth 64) (writeX r (v.extractLsb' 0 32 |>.setWidth 64) s)
    else writeX r (sextX s.cfg.xlen v) s
  else writeFBoxed t r v s

end Sys2Proof.Machine
end

