-- ==== Sys2Proof/Machine/Ops.lean ====
section
/-! DEFINITION. The named operations over memory, the program counter and the load reservation; taking
an exception (one operation, `raise`) and the environment's resolution of a trap (`resolveTrap`); and
the shared shapes of the integer instructions, which the meanings of the families are written over. -/

namespace Sys2Proof.Machine

/-! ### Taking an exception, and what follows -/

/-- `raise E(info)` (60_exceptions.md R945): a next state that holds the record (E, epc, info), with
`epc` the pc of the instruction; no register, CSR, memory byte or reservation changes, `pc` still
holds `epc`, and the instruction does not count in `instret` (R958). What the environment then does is
`resolveTrap`, at the next step. -/
def raise (e : Exn) (info : Word) (s : State) : Res :=
  .next { s with trap := some { exn := e, epc := curPc s, info := info } }

/-- The registers a trap handler sees and may replace (60_exceptions.md R945). -/
def hartRegs (s : State) : HartRegs :=
  { pc := curPc s, x := s.x, f := s.f, frm := s.frm, fflags := s.fflags }

/-- `IALIGN` in bytes: 2 with C, else 4 (00_scope.md R9). -/
def ialignBytes (c : Cfg) : Nat := if c.ext.c then 2 else 4

/-! ### Memory as data -/

/-- The byte a memory holds at an address. -/
def Memory.get : List Host.Cell → Nat → Byte
  | [], _ => Memory.unlisted
  | (a, b) :: rest, k => if a = k then b else Memory.get rest k

/-- Put a byte at its place among the listed addresses. -/
def Memory.insert : List Host.Cell → Nat → Byte → List Host.Cell
  | [], k, v => [(k, v)]
  | (a, b) :: rest, k, v =>
    if a < k then (a, b) :: Memory.insert rest k v
    else if a = k then (k, v) :: rest
    else (k, v) :: (a, b) :: rest

/-- Write one byte, keeping the canonical form: the unlisted value removes the entry. -/
def Memory.set (m : List Host.Cell) (k : Nat) (v : Byte) : List Host.Cell :=
  if v = Memory.unlisted then m.filter (fun c => c.1 != k) else Memory.insert m k v

/-- The number whose base-256 digits, least significant first, are the bytes. -/
def bytesToNat : List Byte → Nat
  | [] => 0
  | b :: bs => b.toNat + 256 * bytesToNat bs

/-- The `n` low base-256 digits of a number, least significant first. -/
def natToBytes : Nat → Nat → List Byte
  | 0, _ => []
  | n + 1, v => BitVec.ofNat 8 v :: natToBytes n (v / 256)

/-! ### The address space -/

/-- The `k`-th byte address of an access at `a`, wrapping modulo 2^XLEN (20_memory.md R90). -/
def byteAddr (c : Cfg) (a : Word) (k : Nat) : Nat := ((truncX c.xlen a).toNat + k) % 2 ^ c.xlen.bits

/-- The byte addresses `a .. a+n-1` of an access (20_memory.md R90). -/
def byteAddrs (c : Cfg) (a : Word) (n : Nat) : List Nat := (List.range n).map (byteAddr c a)

/-- The entry of `REGIONS` that holds an address; none if the address is vacant (20_memory.md R110). -/
def regionAt (c : Cfg) (a : Nat) : Option Region :=
  c.regions.find? (fun r => decide (r.base ≤ a) && decide (a < r.base + r.size))

/-- Whether an address belongs to an I/O region (20_memory.md R91, R112). -/
def isIo (c : Cfg) (a : Nat) : Bool :=
  match regionAt c a with
  | some r => r.kind == .io
  | none => false

/-- The kinds of explicit access (60_exceptions.md R953). -/
inductive Access where
  | load
  | store
  | lr
  | sc
  | amo (op : AmoOp)
deriving DecidableEq, Repr

/-- The access-fault exception of a kind of access: "load" for loads and LR, "store/AMO" for stores, SC
and AMOs (60_exceptions.md R953). -/
def accessFaultOf : Access → Exn
  | .load => .loadAccessFault
  | .lr => .loadAccessFault
  | .store => .storeAccessFault
  | .sc => .storeAccessFault
  | .amo _ => .storeAccessFault

/-- The address-misaligned exception of a kind of access (60_exceptions.md R946, R953). -/
def misalignedOf : Access → Exn
  | .load => .loadAddrMisaligned
  | .lr => .loadAddrMisaligned
  | .store => .storeAddrMisaligned
  | .sc => .storeAddrMisaligned
  | .amo _ => .storeAddrMisaligned

/-- Whether a region grants an access (60_exceptions.md R953 (3)); main memory supports all of A
(20_memory.md R111). -/
def regionPermits (k : Access) (r : Region) : Bool :=
  match k with
  | .load => r.r
  | .store => r.w
  | .lr => r.r && (r.kind == .mainMemory || r.lrsc)
  | .sc => r.w && (r.kind == .mainMemory || r.lrsc)
  | .amo op => r.r && r.w && (r.kind == .mainMemory || r.amos.contains op)

/-- What the configuration does with a misaligned access whose first byte is in a region: `MISALIGNED`
for loads and stores, `MISALIGNED_ATOMIC` for LR, SC and AMOs, but a misaligned AMO proceeds with Zam
(20_memory.md R103, R104; 44_a_zam.md R470, R495). -/
def misalignedPolicy (c : Cfg) (k : Access) (r : Region) : Misaligned :=
  let atomic : Misaligned :=
    match c.misalignedAtomic with
    | .misaligned => .misaligned
    | .accessFault => .accessFault
  match k with
  | .load => r.misLoad
  | .store => r.misStore
  | .lr => atomic
  | .sc => atomic
  | .amo _ => if c.ext.zam then .supported else atomic

/-- Whether every byte of an access is in a region that grants it (60_exceptions.md R953 (3)). -/
def bytesPermitted (c : Cfg) (k : Access) (a : Word) (n : Nat) : Bool :=
  (byteAddrs c a n).all (fun b =>
    match regionAt c b with
    | some r => regionPermits k r
    | none => false)

/-- The exception an access of `n` bytes at `a` raises, if any (60_exceptions.md R953, R955): a vacant
first byte gives the access fault; a misaligned address follows the policy of the region of its first
byte; then every byte must be permitted. -/
def accessCheck (c : Cfg) (k : Access) (a : Word) (n : Nat) : Option Exn :=
  let permitted : Option Exn := if bytesPermitted c k a n then none else some (accessFaultOf k)
  match regionAt c (truncX c.xlen a).toNat with
  | none => some (accessFaultOf k)
  | some r =>
    if (truncX c.xlen a).toNat % n = 0 then permitted
    else
      match misalignedPolicy c k r with
      | .supported => permitted
      | .misaligned => some (misalignedOf k)
      | .accessFault => some (accessFaultOf k)

/-! ### Explicit reads and writes -/

/-- What an explicit read of one byte returns: main memory's byte, or the device's answer
(20_memory.md R111, R112). -/
def readByte (s : State) (a : Nat) : Byte :=
  if isIo s.cfg a then Config.ioRead a s.draw else Memory.get s.mem a

/-- The number that bytes stand for, in the order of their addresses (20_memory.md R96). -/
def bytesValue (c : Cfg) (bytes : List Byte) : Nat := bytesToNat (if c.bigEndian then bytes.reverse else bytes)

/-- `MemRead(a, n)` as a number below 2^(8n), in the byte order of 20_memory.md R96. -/
def memRead (a : Word) (n : Nat) (s : State) : Nat :=
  bytesValue s.cfg ((byteAddrs s.cfg a n).map (readByte s))

/-- The devices see one read of some bytes, those that are theirs (20_memory.md R112; the list is the model's,
entry 22). -/
def noteReads (addrs : List Nat) (s : State) : State :=
  let ios := addrs.filter (isIo s.cfg)
  if ios.isEmpty then s
  else { s with io := .read (ios.map (fun b => (b, readByte s b))) :: s.io }

/-- The devices see a read of `n` bytes at `a`. -/
def noteRead (a : Word) (n : Nat) (s : State) : State := noteReads (byteAddrs s.cfg a n) s

/-- Write one byte of main memory; the value it replaces may still be fetched until the next FENCE.I
(20_memory.md R120). -/
def setMainByte (a : Nat) (v : Byte) (s : State) : State :=
  let old := Memory.get s.mem a
  { s with
    mem := Memory.set s.mem a v
    stale := if old = v then s.stale else (a, old) :: s.stale }

/-- The (address, byte) pairs an access of `n` bytes at `a` with value `v` stores, in the byte order of
20_memory.md R96. -/
def storeCells (c : Cfg) (a : Word) (n : Nat) (v : Nat) : List Host.Cell :=
  let bytes := natToBytes n v
  (byteAddrs c a n).zip (if c.bigEndian then bytes.reverse else bytes)

/-- Store bytes one after another: main-memory bytes to memory, I/O bytes to their device only. -/
def storeBytes : List Host.Cell → State → State
  | [], s => s
  | (a, v) :: rest, s => storeBytes rest (if isIo s.cfg a then s else setMainByte a v s)

/-- The devices receive the bytes stored to them (20_memory.md R112; entry 22). -/
def noteWrite (cells : List Host.Cell) (s : State) : State :=
  let ios := cells.filter (fun c => isIo s.cfg c.1)
  if ios.isEmpty then s else { s with io := .write ios :: s.io }

/-- One store of some bytes: to memory and to the devices. -/
def writeCells (cells : List Host.Cell) (s : State) : State := noteWrite cells (storeBytes cells s)

/-- `MemWrite(a, n, v)` (20_memory.md R96; 40_rv32i_base.md R310). -/
def memWrite (a : Word) (n : Nat) (v : Nat) (s : State) : State := writeCells (storeCells s.cfg a n v) s

/-! ### Reservations -/

/-- `RSET(a, n)` (44_a_zam.md R462, D10): the blocks the configuration gives for this address and size, else the
aligned granule that holds the address. -/
def rsetOf (c : Cfg) (a : Word) (n : Nat) : List ByteRange :=
  match c.rset.find? (fun e => e.addr == a.toNat && e.len == n) with
  | some e => e.set
  | none =>
    let granule := 2 ^ (3 + c.granuleLog)
    [{ base := a.toNat - a.toNat % granule, size := granule }]

/-- The reservation an LR of `n` bytes at `a` registers: `RSET(a, n)`, which always has the bytes accessed, and
those bytes (44_a_zam.md R462, D10). -/
def reservationFor (c : Cfg) (a : Word) (n : Nat) : Reservation :=
  { set := { base := a.toNat, size := n } :: rsetOf c a n, lrAddr := a.toNat, lrLen := n }

/-- Whether a byte address belongs to a reservation set (44_a_zam.md R462). -/
def inReservation (r : Reservation) (a : Nat) : Bool :=
  r.set.any (fun g => decide (g.base ≤ a) && decide (a < g.base + g.size))

/-- Whether one of the written addresses is a byte the LR accessed. -/
def touchesLr (r : Reservation) (writes : List Host.Cell) : Bool :=
  writes.any (fun c => decide (r.lrAddr ≤ c.1) && decide (c.1 < r.lrAddr + r.lrLen))

/-- Whether one of the written addresses is in the reservation set. -/
def touchesSet (r : Reservation) (writes : List Host.Cell) : Bool := writes.any (fun c => inReservation r c.1)

/-- The reservation after writes of the environment agent in one of its turns: gone if they touch the bytes the LR
accessed; kept or gone, by a free value, if they touch only the rest of the set (44_a_zam.md R465, D5). -/
def reservationAfter (draw turn : Nat) (writes : List Host.Cell) (r : Reservation) : Option Reservation :=
  if touchesLr r writes then none
  else if touchesSet r writes && Config.envBreaksReservation draw turn then none
  else some r

/-- The reservation that the latest LR of a constrained loop made, held or not (44_a_zam.md R467). -/
def loopReservation (c : Cfg) (w : LoopWatch) : Reservation := reservationFor c (BitVec.ofNat 64 w.lrAddr) w.lrLen

/-! ### The environment agent -/

/-- Writes of the environment agent to memory: the bytes, what becomes of the reservation, and no more promise to a
constrained loop if they touch the reservation set of its LR, whether or not a reservation is held
(44_a_zam.md R465, R467, D5). -/
def envWrite (turn : Nat) (writes : List Host.Cell) (s : State) : State :=
  { storeBytes writes s with
    reservation := s.reservation.bind (reservationAfter s.draw turn writes)
    watch := s.watch.filter (fun w => !touchesSet (loopReservation s.cfg w) writes) }

/-- Addresses an agent supplies are taken modulo 2^XLEN (20_memory.md R90). -/
def wrapCells (c : Cfg) (writes : List Host.Cell) : List Host.Cell :=
  writes.map (fun w => (w.1 % 2 ^ c.xlen.bits, w.2))

/-- A turn of the environment agent: what it writes to main memory, where the platform lets it (20_memory.md R126,
D5). It has turn 0 before each step, and a turn between any two memory operations of one instruction: DESIGN CHOICE,
unsafe, entry 37. -/
def agentTurn (turn : Nat) (s : State) : State :=
  if s.cfg.agentWrites then envWrite turn (wrapCells s.cfg (Config.agentWrites s.draw turn)) s else s

/-! ### Accesses of one or of several memory operations -/

/-- Whether an access is one memory operation: naturally aligned and of at most XLEN bits. Any other that completes is
several (20_memory.md R106, R107; 21_memory_model.md R132; D2). -/
def singleAccess (c : Cfg) (a : Word) (n : Nat) : Bool :=
  decide ((truncX c.xlen a).toNat % n = 0) && decide (8 * n ≤ c.xlen.bits)

/-- Consecutive offsets cut into pieces, after each offset at which `cut` says so. -/
def pieces (cut : Nat → Bool) : List Nat → List (List Nat)
  | [] => []
  | k :: rest =>
    match pieces cut rest with
    | [] => [[k]]
    | piece :: more => if cut k then [k] :: piece :: more else (k :: piece) :: more

/-- A list in an order that `pick` chooses: each entry is put at a free place among those after it. -/
def shuffle {α : Type} (pick : Nat → Nat) : List α → List α
  | [] => []
  | x :: rest => (shuffle pick rest).insertIdx (pick rest.length % (rest.length + 1)) x

/-- The memory operations of an access that is several, as the offsets of their bytes, in the order they are
performed: single bytes of a misaligned access (D2), pieces of free sizes of an aligned one (20_memory.md R107, U46); in
a free order (21_memory_model.md R132). A half of an AMO has an order of its own. -/
def components (c : Cfg) (a : Word) (n half draw : Nat) : List (List Nat) :=
  let aligned := decide ((truncX c.xlen a).toNat % n = 0)
  shuffle (Config.componentOrder draw half)
    (pieces (fun k => !aligned || Config.componentEnds draw k) (List.range n))

/-- The environment agent's turn before a memory operation of an instruction, if there was one before it. -/
def turnBefore (turn : Nat) (s : State) : State := if turn = 0 then s else agentTurn turn s

/-- Read the bytes at some offsets from `a`, one component after another, the environment agent having its turn
between any two: the bytes by their offsets, and the state after. -/
def readParts (a : Word) : List (List Nat) → Nat → State → (Nat → Byte) × State
  | [], _, s => (fun _ => 0, s)
  | part :: rest, turn, s =>
    let now := turnBefore turn s
    let later := readParts a rest (turn + 1) (noteReads (part.map (byteAddr s.cfg a)) now)
    (fun k => if part.contains k then readByte now (byteAddr s.cfg a k) else later.1 k, later.2)

/-- Store some of the bytes of an access, one component after another, the environment agent having its turn between
any two. -/
def writeParts (cells : List Host.Cell) : List (List Nat) → Nat → State → State
  | [], _, s => s
  | part :: rest, turn, s =>
    writeParts cells rest (turn + 1) (writeCells (part.filterMap (fun k => cells[k]?)) (turnBefore turn s))

/-- A read of `n` bytes at `a` that is no reservation's: the value, and the state after; one memory operation, or
several (21_memory_model.md R132, D2). -/
def readAccess (a : Word) (n : Nat) (s : State) : Nat × State :=
  if singleAccess s.cfg a n then (memRead a n s, noteRead a n s)
  else
    let r := readParts a (components s.cfg a n 0 s.draw) 0 s
    (bytesValue s.cfg ((List.range n).map r.1), r.2)

/-- A store of the low `n` bytes of `v` at `a` that is no SC's: one memory operation, or several, of which the first is
preceded by the agent's turn `first` if that is not 0 (21_memory_model.md R132, D2). -/
def writeAccess (first : Nat) (a : Word) (n : Nat) (v : Nat) (s : State) : State :=
  if singleAccess s.cfg a n then memWrite a n v s
  else writeParts (storeCells s.cfg a n v) (components s.cfg a n 1 s.draw) first s

/-! ### The environment's resolution of a trap -/

/-- The hart continues with the registers a handler supplied, at their widths (60_exceptions.md R945 (b));
the pc is rounded down to IALIGN (10_state.md R47; DESIGN CHOICE, entry 12). A trap ends the promise to a
constrained loop (44_a_zam.md R467). -/
def resume (reply : HandlerReply) (s : State) : State :=
  let target := truncX s.cfg.xlen reply.regs.pc
  { envWrite 1 (wrapCells s.cfg reply.writes) s with
    pc := target - BitVec.ofNat 64 (target.toNat % ialignBytes s.cfg)
    x := reply.regs.x.map (truncX s.cfg.xlen)
    f := reply.regs.f.map (fun v => (v.setWidth (flen s.cfg)).setWidth 128)
    frm := reply.regs.frm
    fflags := reply.regs.fflags
    watch := none
    trap := none }

/-- What becomes of a pending trap (60_exceptions.md R945): under `fatal` the hart stops with the
record; under `handled` the environment's handler stops it or resumes it. There is no trap-return
instruction (R967): this is the only way back. -/
def resolveTrap (r : TrapRecord) (s : State) : Res :=
  match s.cfg.trapPolicy with
  | .fatal => .fault (.fatalTrap r)
  | .handled =>
    match Config.trapHandler s.draw (hartRegs s) s.mem r with
    | none => .fault (.handlerStopped r)
    | some reply => .next (resume reply s)

/-! ### Completing an instruction -/

/-- The end of an instruction that is no taken control transfer: `pc <- pc + len`, one more instruction
retired (10_state.md R46, R63). -/
def retire (len : Nat) (s : State) : Res :=
  .next { s with
    pc := truncX s.cfg.xlen (curPc s + BitVec.ofNat 64 len)
    instret := s.instret + 1 }

/-- The end of a taken control transfer: `pc <- t`, one more instruction retired (10_state.md R46, R63). -/
def jumpTo (t : Word) (s : State) : Res :=
  .next { s with pc := t, instret := s.instret + 1 }

/-- The link value `pc + len` (40_rv32i_base.md R291; 48_c.md R803). -/
def linkValue (len : Nat) (s : State) : Word :=
  truncX s.cfg.xlen (curPc s + BitVec.ofNat 64 len)

/-- Whether a target is not aligned to an IALIGN-bit boundary (40_rv32i_base.md R300). -/
def targetMisaligned (c : Cfg) (t : Word) : Bool := t.toNat % ialignBytes c != 0

/-! ### Integer computational shapes -/

/-- Addition modulo 2^w (R264, R275). -/
def aluAdd : AluOp := fun _ a b => a + b

/-- Subtraction modulo 2^w (R276). -/
def aluSub : AluOp := fun _ a b => a - b

/-- Bitwise AND (R267, R284). -/
def aluAnd : AluOp := fun _ a b => a &&& b

/-- Bitwise OR (R268, R283). -/
def aluOr : AluOp := fun _ a b => a ||| b

/-- Bitwise XOR (R269, R280). -/
def aluXor : AluOp := fun _ a b => a ^^^ b

/-- Logical left shift by the low log2(w) bits of the second operand (R277, R349). -/
def aluSll : AluOp := fun w a b => a <<< (b.toNat % w)

/-- Logical right shift by the low log2(w) bits of the second operand (R281, R349). -/
def aluSrl : AluOp := fun w a b => a >>> (b.toNat % w)

/-- Arithmetic right shift by the low log2(w) bits of the second operand (R282, R349). -/
def aluSra : AluOp := fun w a b => a.sshiftRight (b.toNat % w)

/-- Signed less-than as 0 or 1 (R265, R278). -/
def aluSlt : AluOp := fun w a b => BitVec.ofNat w (if a.toInt < b.toInt then 1 else 0)

/-- Unsigned less-than as 0 or 1 (R266, R279). -/
def aluSltu : AluOp := fun w a b => BitVec.ofNat w (if a.toNat < b.toNat then 1 else 0)

/-- `x[rd] <- op(x[rs1], x[rs2])` (R262). -/
def regReg (len : Nat) (op : AluOp) (rd rs1 rs2 : RegNum) (s : State) : Res :=
  retire len (writeX rd (aluAtXlen s.cfg.xlen op (readX rs1 s) (readX rs2 s)) s)

/-- `x[rd] <- op(x[rs1], imm)` (R262). -/
def regImm (len : Nat) (op : AluOp) (rd rs1 : RegNum) (imm : Word) (s : State) : Res :=
  retire len (writeX rd (aluAtXlen s.cfg.xlen op (readX rs1 s) (truncX s.cfg.xlen imm)) s)

/-- A "W" instruction on two registers (41_rv64i_rv32e_rv128i.md R341). -/
def regRegW (len : Nat) (op : AluOp) (rd rs1 rs2 : RegNum) (s : State) : Res :=
  retire len (writeX rd (aluW s.cfg.xlen op (readX rs1 s) (readX rs2 s)) s)

/-- A "W" instruction on a register and an immediate (41_rv64i_rv32e_rv128i.md R341). -/
def regImmW (len : Nat) (op : AluOp) (rd rs1 : RegNum) (imm : Word) (s : State) : Res :=
  retire len (writeX rd (aluW s.cfg.xlen op (readX rs1 s) imm) s)

/-- `x[rd] <- imm` (R273). -/
def loadImm (len : Nat) (rd : RegNum) (imm : Word) (s : State) : Res :=
  retire len (writeX rd imm s)

/-- `x[rd] <- pc + imm` (R274). -/
def pcRelative (len : Nat) (rd : RegNum) (imm : Word) (s : State) : Res :=
  retire len (writeX rd (curPc s + imm) s)

/-- An instruction whose only effect is to advance (HINTs, FENCE in one hart; R240, R315, D15). -/
def noEffect (len : Nat) (s : State) : Res := retire len s

/-! ### Control transfer shapes -/

/-- An unconditional jump to `t` that links: the misaligned target raises on the jump and nothing is
written (R291, R292, R300). -/
def jumpAndLink (len : Nat) (rd : RegNum) (t : Word) (s : State) : Res :=
  if targetMisaligned s.cfg t then raise .instrAddrMisaligned t s
  else jumpTo t (writeX rd (linkValue len s) s)

/-- JAL and its compressed forms: target `pc + off` (R291). -/
def jumpRelative (len : Nat) (rd : RegNum) (off : Word) (s : State) : Res :=
  jumpAndLink len rd (truncX s.cfg.xlen (curPc s + off)) s

/-- JALR and its compressed forms: target `(x[rs1] + off) & ~1`, read before `rd` is written (R292). -/
def jumpRegister (len : Nat) (rd rs1 : RegNum) (off : Word) (s : State) : Res :=
  jumpAndLink len rd (truncX s.cfg.xlen (readX rs1 s + off) &&& ~~~1) s

/-- Equality (R294). -/
def cmpEq : CmpOp := fun _ a b => decide (a = b)

/-- Inequality (R295). -/
def cmpNe : CmpOp := fun _ a b => decide (a ≠ b)

/-- Signed less-than (R296). -/
def cmpLt : CmpOp := fun _ a b => decide (a.toInt < b.toInt)

/-- Signed greater-or-equal (R297). -/
def cmpGe : CmpOp := fun _ a b => decide (b.toInt ≤ a.toInt)

/-- Unsigned less-than (R298). -/
def cmpLtu : CmpOp := fun _ a b => decide (a.toNat < b.toNat)

/-- Unsigned greater-or-equal (R299). -/
def cmpGeu : CmpOp := fun _ a b => decide (b.toNat ≤ a.toNat)

/-- A conditional branch: only a taken branch tests the alignment of its target (R293, R300). -/
def branch (len : Nat) (cmp : CmpOp) (rs1 rs2 : RegNum) (off : Word) (s : State) : Res :=
  if cmpAtXlen s.cfg.xlen cmp (readX rs1 s) (readX rs2 s) then
    let t := truncX s.cfg.xlen (curPc s + off)
    if targetMisaligned s.cfg t then raise .instrAddrMisaligned t s else jumpTo t s
  else retire len s

/-! ### Load and store shapes -/

/-- The effective address `x[rs1] + off` modulo 2^XLEN (20_memory.md R105). -/
def effAddr (rs1 : RegNum) (off : Word) (s : State) : Word :=
  truncX s.cfg.xlen (readX rs1 s + off)

/-- Whether a loaded integer is sign- or zero-extended. -/
inductive LoadExt where
  | signed
  | unsigned
deriving DecidableEq, Repr

/-- A value of `8n` bits extended to XLEN bits (R305 to R309, R356, R357). -/
def extendLoad (c : Xlen) (e : LoadExt) (n : Nat) (v : Nat) : Word :=
  match e with
  | .signed => sextX c (BitVec.ofNat (8 * n) v)
  | .unsigned => zextX c (BitVec.ofNat (8 * n) v)

/-- An integer load of `n` bytes: `x[rd] <- ext(MemRead(a, n))` (R305 to R310), one memory operation or several
(21_memory_model.md R132). -/
def loadX (len n : Nat) (e : LoadExt) (rd rs1 : RegNum) (off : Word) (s : State) : Res :=
  let a := effAddr rs1 off s
  match accessCheck s.cfg .load a n with
  | some x => raise x a s
  | none =>
    let r := readAccess a n s
    retire len (writeX rd (extendLoad s.cfg.xlen e n r.1) r.2)

/-- An integer store of `n` bytes: `MemWrite(a, n, x[rs2])` (R310 to R313), one memory operation or several
(21_memory_model.md R132). -/
def storeX (len n : Nat) (rs2 rs1 : RegNum) (off : Word) (s : State) : Res :=
  let a := effAddr rs1 off s
  match accessCheck s.cfg .store a n with
  | some x => raise x a s
  | none => retire len (writeAccess 0 a n (readX rs2 s).toNat s)

/-- A floating-point load: `f[rd] <-box MemRead(ea, n)`, bits unmodified (46_f.md R580, R581); several memory
operations if it is misaligned, or wider than XLEN and the free values cut it (20_memory.md R107; 47_d.md R664; U46). -/
def loadF (len : Nat) (t : Fmt) (rd rs1 : RegNum) (off : Word) (s : State) : Res :=
  let a := effAddr rs1 off s
  let n := t.width / 8
  match accessCheck s.cfg .load a n with
  | some x => raise x a s
  | none =>
    let r := readAccess a n s
    retire len (writeFBoxed t rd (BitVec.ofNat _ r.1) r.2)

/-- A floating-point store: `MemWrite(ea, n, f[rs2])`, bits unmodified (46_f.md R580, R582); several memory
operations as for a load (20_memory.md R107; 47_d.md R664; U46). -/
def storeF (len : Nat) (t : Fmt) (rs2 rs1 : RegNum) (off : Word) (s : State) : Res :=
  let a := effAddr rs1 off s
  let n := t.width / 8
  match accessCheck s.cfg .store a n with
  | some x => raise x a s
  | none => retire len (writeAccess 0 a n (readFRaw t rs2 s).toNat s)

/-! ### Atomic shapes -/

/-- Whether every byte of an SC lies in the reservation set (44_a_zam.md R465). -/
def reservationCovers (r : Reservation) (c : Cfg) (a : Word) (n : Nat) : Bool :=
  (byteAddrs c a n).all (inReservation r)

/-- LR: load, sign-extend, register the reservation (44_a_zam.md R463, R466). -/
def loadReserved (n : Nat) (rd rs1 : RegNum) (s : State) : Res :=
  let a := effAddr rs1 0 s
  match accessCheck s.cfg .lr a n with
  | some x => raise x a s
  | none =>
    let s1 := writeX rd (extendLoad s.cfg.xlen .signed n (memRead a n s)) (noteRead a n s)
    retire 4 { s1 with reservation := some (reservationFor s.cfg a n) }

/-- The length of an instruction that a loop has not executed, by the low bits of its first byte (30_encoding.md R192);
what a device holds there is a free value (20_memory.md R123; entry 36). -/
def unrunLength (s : State) (pc : Nat) : Nat :=
  let first := if isIo s.cfg pc then Config.ioFetch pc s.draw else Memory.get s.mem pc
  if s.cfg.ext.c && first.toNat % 4 != 3 then 2 else 4

/-- The address after an instruction, modulo 2^XLEN (10_state.md R46): by the length of what was executed there, else of
what memory holds. -/
def nextPlaced (s : State) (code : List (Nat × Nat)) (pc : Nat) : Nat :=
  let len := match code.find? (fun i => i.1 == pc) with
    | some i => i.2
    | none => unrunLength s pc
  (pc + len) % 2 ^ s.cfg.xlen.bits

/-- The addresses of the given number of instructions placed sequentially in memory (44_a_zam.md R467). -/
def placed (s : State) (code : List (Nat × Nat)) : Nat → Nat → List Nat
  | 0, _ => []
  | n + 1, pc => pc :: placed s code n (nextPlaced s code pc)

/-- Whether a loop's instructions are among 16 instructions placed sequentially in memory that begin with one of them
(44_a_zam.md R467; 48_c.md R865: counted as instructions whatever their length). -/
def loopFits (s : State) (w : LoopWatch) : Bool :=
  w.code.any (fun first =>
    let sequence := placed s w.code 16 first.1
    w.code.all (fun i => sequence.contains i.1))

/-- Whether an SC of `n` bytes at `a` ends a sequence of a constrained LR/SC loop (44_a_zam.md R467): begun by the
LR and not yet ended by another SC, to the same address and of the same size as the LR, in main memory, the loop at
most 16 instructions placed sequentially. What stands between is checked as it runs (`observe`). -/
def scConstrained (a : Word) (n : Nat) (s : State) (w : LoopWatch) : Bool :=
  !w.retrying && w.lrAddr == a.toNat && w.lrLen == n && (byteAddrs s.cfg a n).all (fun b => !isIo s.cfg b) &&
    loopFits s w

/-- Whether an SC must succeed, if nothing forces it to fail, because it ends a sequence of a constrained loop that
has failed often enough: the eventual success of R467, as a bound on the failures that no proof can see (entry 36). -/
def scOwed (a : Word) (n : Nat) (s : State) : Bool :=
  s.watch.any (fun w => scConstrained a n s w && decide (Config.scPatience w.since < w.failures))

/-- Whether an SC of `n` bytes at `a` succeeds: it must fail without a reservation that covers its bytes; otherwise
success is a free value, subject to the eventual success of constrained loops (44_a_zam.md R465, R467, D10). -/
def scSuccess (a : Word) (n : Nat) (s : State) : Bool :=
  match s.reservation with
  | none => false
  | some r => reservationCovers r s.cfg a n && (Config.scSucceeds s.draw || scOwed a n s)

/-- The loop after an SC that failed: one more failure counted, and the code to retry begins; no constrained loop
if the sequence was none (44_a_zam.md R467). -/
def watchAfterFailure (a : Word) (n : Nat) (s : State) : Option LoopWatch :=
  s.watch.bind (fun w =>
    if scConstrained a n s w && decide (w.failures ≤ Config.scPatience w.since) then
      some { w with retrying := true, failures := w.failures + 1 }
    else none)

/-- SC: the address exceptions first; on success the store and 0 in `rd`, on failure the failure code;
the reservation is gone either way (44_a_zam.md R464, R466, D10, D11). -/
def storeConditional (n : Nat) (rd rs1 rs2 : RegNum) (s : State) : Res :=
  let a := effAddr rs1 0 s
  match accessCheck s.cfg .sc a n with
  | some x => raise x a s
  | none =>
    if scSuccess a n s then
      retire 4 { writeX rd 0 (memWrite a n (readX rs2 s).toNat s) with reservation := none, watch := none }
    else
      retire 4 { writeX rd Config.scFailCode s with reservation := none, watch := watchAfterFailure a n s }

/-- The operator of an AMO on two values of the operand's width (44_a_zam.md R481 to R489). -/
def amoApply (op : AmoOp) {w : Nat} (t v : BitVec w) : BitVec w :=
  match op with
  | .swap => v
  | .add => t + v
  | .xor => t ^^^ v
  | .and => t &&& v
  | .or => t ||| v
  | .min => if t.toInt ≤ v.toInt then t else v
  | .max => if t.toInt ≤ v.toInt then v else t
  | .minu => if t.toNat ≤ v.toNat then t else v
  | .maxu => if t.toNat ≤ v.toNat then v else t

/-- AMO: load, operate, store, and the sign-extended loaded value in `rd`; sources are read before `rd` is written
(44_a_zam.md R480). An aligned one is indivisible. A misaligned one, which only Zam lets proceed, is single-byte
operations, the environment agent having its turn between any two: the axiom of R495 binds other harts alone, and the
agent's byte writes are of another size (20_memory.md R108; 21_memory_model.md R132). DEDUCED, entry 8. -/
def amo (op : AmoOp) (n : Nat) (rd rs1 rs2 : RegNum) (s : State) : Res :=
  let a := effAddr rs1 0 s
  match accessCheck s.cfg (.amo op) a n with
  | some x => raise x a s
  | none =>
    let r := readAccess a n s
    let new := amoApply op (BitVec.ofNat (8 * n) r.1) ((readX rs2 s).setWidth (8 * n))
    retire 4 (writeX rd (extendLoad s.cfg.xlen .signed n r.1) (writeAccess n a n new.toNat r.2))

/-! ### Other shapes -/

/-- ECALL (40_rv32i_base.md R321; 60_exceptions.md R960): the environment-call exception, info 0. -/
def environmentCall (s : State) : Res := raise .environmentCall 0 s

/-- EBREAK and C.EBREAK (40_rv32i_base.md R322; 60_exceptions.md R960): breakpoint, info the pc. -/
def breakpoint (s : State) : Res := raise .breakpoint (curPc s) s

/-- An instruction that is illegal when executed: `info` is its bits, zero-extended (60_exceptions.md
R946, R952). -/
def illegal (bits : InstrWord) (s : State) : Res :=
  raise .illegalInstruction (truncX s.cfg.xlen (bits.setWidth 64)) s

/-- FENCE.I: every later fetch sees the stores made so far; nothing else changes (42_zifencei_hints.md R400). R400
and D16 promise this "at least" for the hart's own stores and for those of the environment agent that a load of the
hart has returned; that it holds of every earlier write of the agent is the model's: DESIGN CHOICE, unsafe, entry 21. -/
def fenceInstr (s : State) : Res := retire 4 { s with stale := [] }

end Sys2Proof.Machine
end

