-- ==== Sys2Proof/Machine/Atomic.lean ====
section
/-! DEFINITION. The atomic instructions (44_a_zam.md R463 to R489). The `aq` and `rl` bits order accesses as other harts see
them; they change nothing a single hart can see (entry 23). -/

namespace Sys2Proof.Machine

/-- LR.W (44_a_zam.md R463): load 4 bytes, sign-extend, reserve. -/
def execLrW (rd : RegNum) (rs1 : RegNum) (_aq : BitVec 1) (_rl : BitVec 1) (s : State) : Res :=
  loadReserved 4 rd rs1 s

/-- SC.W (44_a_zam.md R464): store 4 bytes if the reservation holds; 0 or the failure code in `rd`. -/
def execScW (rd : RegNum) (rs1 : RegNum) (rs2 : RegNum) (_aq : BitVec 1) (_rl : BitVec 1) (s : State) : Res :=
  storeConditional 4 rd rs1 rs2 s

/-- AMOSWAP.W (44_a_zam.md R481): read, operate, write 4 bytes in one step; the old value in `rd`. -/
def execAmoswapW (rd : RegNum) (rs1 : RegNum) (rs2 : RegNum) (_aq : BitVec 1) (_rl : BitVec 1) (s : State) : Res :=
  amo .swap 4 rd rs1 rs2 s

/-- AMOADD.W (44_a_zam.md R482): read, operate, write 4 bytes in one step; the old value in `rd`. -/
def execAmoaddW (rd : RegNum) (rs1 : RegNum) (rs2 : RegNum) (_aq : BitVec 1) (_rl : BitVec 1) (s : State) : Res :=
  amo .add 4 rd rs1 rs2 s

/-- AMOXOR.W (44_a_zam.md R483): read, operate, write 4 bytes in one step; the old value in `rd`. -/
def execAmoxorW (rd : RegNum) (rs1 : RegNum) (rs2 : RegNum) (_aq : BitVec 1) (_rl : BitVec 1) (s : State) : Res :=
  amo .xor 4 rd rs1 rs2 s

/-- AMOAND.W (44_a_zam.md R484): read, operate, write 4 bytes in one step; the old value in `rd`. -/
def execAmoandW (rd : RegNum) (rs1 : RegNum) (rs2 : RegNum) (_aq : BitVec 1) (_rl : BitVec 1) (s : State) : Res :=
  amo .and 4 rd rs1 rs2 s

/-- AMOOR.W (44_a_zam.md R485): read, operate, write 4 bytes in one step; the old value in `rd`. -/
def execAmoorW (rd : RegNum) (rs1 : RegNum) (rs2 : RegNum) (_aq : BitVec 1) (_rl : BitVec 1) (s : State) : Res :=
  amo .or 4 rd rs1 rs2 s

/-- AMOMIN.W (44_a_zam.md R486): read, operate, write 4 bytes in one step; the old value in `rd`. -/
def execAmominW (rd : RegNum) (rs1 : RegNum) (rs2 : RegNum) (_aq : BitVec 1) (_rl : BitVec 1) (s : State) : Res :=
  amo .min 4 rd rs1 rs2 s

/-- AMOMAX.W (44_a_zam.md R487): read, operate, write 4 bytes in one step; the old value in `rd`. -/
def execAmomaxW (rd : RegNum) (rs1 : RegNum) (rs2 : RegNum) (_aq : BitVec 1) (_rl : BitVec 1) (s : State) : Res :=
  amo .max 4 rd rs1 rs2 s

/-- AMOMINU.W (44_a_zam.md R488): read, operate, write 4 bytes in one step; the old value in `rd`. -/
def execAmominuW (rd : RegNum) (rs1 : RegNum) (rs2 : RegNum) (_aq : BitVec 1) (_rl : BitVec 1) (s : State) : Res :=
  amo .minu 4 rd rs1 rs2 s

/-- AMOMAXU.W (44_a_zam.md R489): read, operate, write 4 bytes in one step; the old value in `rd`. -/
def execAmomaxuW (rd : RegNum) (rs1 : RegNum) (rs2 : RegNum) (_aq : BitVec 1) (_rl : BitVec 1) (s : State) : Res :=
  amo .maxu 4 rd rs1 rs2 s

/-- LR.D (44_a_zam.md R466): load 8 bytes, sign-extend, reserve. -/
def execLrD (rd : RegNum) (rs1 : RegNum) (_aq : BitVec 1) (_rl : BitVec 1) (s : State) : Res :=
  loadReserved 8 rd rs1 s

/-- SC.D (44_a_zam.md R466): store 8 bytes if the reservation holds; 0 or the failure code in `rd`. -/
def execScD (rd : RegNum) (rs1 : RegNum) (rs2 : RegNum) (_aq : BitVec 1) (_rl : BitVec 1) (s : State) : Res :=
  storeConditional 8 rd rs1 rs2 s

/-- AMOSWAP.D (44_a_zam.md R481): read, operate, write 8 bytes in one step; the old value in `rd`. -/
def execAmoswapD (rd : RegNum) (rs1 : RegNum) (rs2 : RegNum) (_aq : BitVec 1) (_rl : BitVec 1) (s : State) : Res :=
  amo .swap 8 rd rs1 rs2 s

/-- AMOADD.D (44_a_zam.md R482): read, operate, write 8 bytes in one step; the old value in `rd`. -/
def execAmoaddD (rd : RegNum) (rs1 : RegNum) (rs2 : RegNum) (_aq : BitVec 1) (_rl : BitVec 1) (s : State) : Res :=
  amo .add 8 rd rs1 rs2 s

/-- AMOXOR.D (44_a_zam.md R483): read, operate, write 8 bytes in one step; the old value in `rd`. -/
def execAmoxorD (rd : RegNum) (rs1 : RegNum) (rs2 : RegNum) (_aq : BitVec 1) (_rl : BitVec 1) (s : State) : Res :=
  amo .xor 8 rd rs1 rs2 s

/-- AMOAND.D (44_a_zam.md R484): read, operate, write 8 bytes in one step; the old value in `rd`. -/
def execAmoandD (rd : RegNum) (rs1 : RegNum) (rs2 : RegNum) (_aq : BitVec 1) (_rl : BitVec 1) (s : State) : Res :=
  amo .and 8 rd rs1 rs2 s

/-- AMOOR.D (44_a_zam.md R485): read, operate, write 8 bytes in one step; the old value in `rd`. -/
def execAmoorD (rd : RegNum) (rs1 : RegNum) (rs2 : RegNum) (_aq : BitVec 1) (_rl : BitVec 1) (s : State) : Res :=
  amo .or 8 rd rs1 rs2 s

/-- AMOMIN.D (44_a_zam.md R486): read, operate, write 8 bytes in one step; the old value in `rd`. -/
def execAmominD (rd : RegNum) (rs1 : RegNum) (rs2 : RegNum) (_aq : BitVec 1) (_rl : BitVec 1) (s : State) : Res :=
  amo .min 8 rd rs1 rs2 s

/-- AMOMAX.D (44_a_zam.md R487): read, operate, write 8 bytes in one step; the old value in `rd`. -/
def execAmomaxD (rd : RegNum) (rs1 : RegNum) (rs2 : RegNum) (_aq : BitVec 1) (_rl : BitVec 1) (s : State) : Res :=
  amo .max 8 rd rs1 rs2 s

/-- AMOMINU.D (44_a_zam.md R488): read, operate, write 8 bytes in one step; the old value in `rd`. -/
def execAmominuD (rd : RegNum) (rs1 : RegNum) (rs2 : RegNum) (_aq : BitVec 1) (_rl : BitVec 1) (s : State) : Res :=
  amo .minu 8 rd rs1 rs2 s

/-- AMOMAXU.D (44_a_zam.md R489): read, operate, write 8 bytes in one step; the old value in `rd`. -/
def execAmomaxuD (rd : RegNum) (rs1 : RegNum) (rs2 : RegNum) (_aq : BitVec 1) (_rl : BitVec 1) (s : State) : Res :=
  amo .maxu 8 rd rs1 rs2 s

end Sys2Proof.Machine
end

