-- ==== Sys2Proof/Machine/Compressed.lean ====
section
/-! DEFINITION. The compressed instructions: each the effect of its expansion with `len = 2` (48_c.md R803). -/

namespace Sys2Proof.Machine

/-- C.ADDI4SPN (48_c.md R845): `x[rd'] <- x[2] + imm`. -/
def execCAddi4spn (rd : CRegNum) (imm : BitVec 8) (s : State) : Res :=
  regImm 2 aluAdd (cReg rd) 2 (cImm4spn imm) s

/-- C.FLD (48_c.md R821): as FLD. -/
def execCFld (rd : CRegNum) (rs1 : CRegNum) (imm : BitVec 5) (s : State) : Res :=
  loadF 2 .d (cReg rd) (cReg rs1) (cOffD imm) s

/-- C.LW (48_c.md R818): as LW. -/
def execCLw (rd : CRegNum) (rs1 : CRegNum) (imm : BitVec 5) (s : State) : Res :=
  loadX 2 4 .signed (cReg rd) (cReg rs1) (cOffW imm) s

/-- C.FLW (48_c.md R820): as FLW. -/
def execCFlw (rd : CRegNum) (rs1 : CRegNum) (imm : BitVec 5) (s : State) : Res :=
  loadF 2 .s (cReg rd) (cReg rs1) (cOffW imm) s

/-- C.LD (48_c.md R819): as LD. -/
def execCLd (rd : CRegNum) (rs1 : CRegNum) (imm : BitVec 5) (s : State) : Res :=
  loadX 2 8 .signed (cReg rd) (cReg rs1) (cOffD imm) s

/-- C.FSD (48_c.md R825): as FSD. -/
def execCFsd (rs2 : CRegNum) (rs1 : CRegNum) (imm : BitVec 5) (s : State) : Res :=
  storeF 2 .d (cReg rs2) (cReg rs1) (cOffD imm) s

/-- C.SW (48_c.md R822): as SW. -/
def execCSw (rs2 : CRegNum) (rs1 : CRegNum) (imm : BitVec 5) (s : State) : Res :=
  storeX 2 4 (cReg rs2) (cReg rs1) (cOffW imm) s

/-- C.FSW (48_c.md R824): as FSW. -/
def execCFsw (rs2 : CRegNum) (rs1 : CRegNum) (imm : BitVec 5) (s : State) : Res :=
  storeF 2 .s (cReg rs2) (cReg rs1) (cOffW imm) s

/-- C.SD (48_c.md R823): as SD. -/
def execCSd (rs2 : CRegNum) (rs1 : CRegNum) (imm : BitVec 5) (s : State) : Res :=
  storeX 2 8 (cReg rs2) (cReg rs1) (cOffD imm) s

/-- C.NOP (48_c.md R859): advances only; a HINT when the immediate is not 0. -/
def execCNop (_imm : BitVec 6) (s : State) : Res :=
  noEffect 2 s

/-- C.ADDI (48_c.md R842): `x[rd] <- x[rd] + imm`. -/
def execCAddi (rd : RegNum) (imm : BitVec 6) (s : State) : Res :=
  regImm 2 aluAdd rd rd (cImm6 imm) s

/-- C.JAL (48_c.md R831): jump to `pc + off`, link `pc + 2` in `x1`. -/
def execCJal (off : BitVec 11) (s : State) : Res :=
  jumpRelative 2 1 (cOffJ off) s

/-- C.ADDIW (48_c.md R843): `x[rd]` gets the low word of the sum, sign-extended. -/
def execCAddiw (rd : RegNum) (imm : BitVec 6) (s : State) : Res :=
  regImmW 2 aluAdd rd rd (cImm6 imm) s

/-- C.LI (48_c.md R840): `x[rd] <- imm`. -/
def execCLi (rd : RegNum) (imm : BitVec 6) (s : State) : Res :=
  regImm 2 aluAdd rd 0 (cImm6 imm) s

/-- C.ADDI16SP (48_c.md R844): `x[2] <- x[2] + imm`. -/
def execCAddi16sp (imm : BitVec 6) (s : State) : Res :=
  regImm 2 aluAdd 2 2 (cImm16sp imm) s

/-- C.LUI (48_c.md R841): `x[rd] <- imm`. -/
def execCLui (rd : RegNum) (imm : BitVec 6) (s : State) : Res :=
  loadImm 2 rd (cImmLui imm) s

/-- C.SRLI (48_c.md R847): `x[rd']` shifted by shamt. -/
def execCSrli (rd : CRegNum) (shamt : BitVec 6) (s : State) : Res :=
  regImm 2 aluSrl (cReg rd) (cReg rd) (shamt.setWidth 64) s

/-- C.SRAI (48_c.md R848): `x[rd']` shifted by shamt. -/
def execCSrai (rd : CRegNum) (shamt : BitVec 6) (s : State) : Res :=
  regImm 2 aluSra (cReg rd) (cReg rd) (shamt.setWidth 64) s

/-- C.ANDI (48_c.md R849): `x[rd'] <- x[rd'] & imm`. -/
def execCAndi (rd : CRegNum) (imm : BitVec 6) (s : State) : Res :=
  regImm 2 aluAnd (cReg rd) (cReg rd) (cImm6 imm) s

/-- C.SUB (48_c.md R855): `x[rd'] <- op(x[rd'], x[rs2'])`. -/
def execCSub (rd : CRegNum) (rs2 : CRegNum) (s : State) : Res :=
  regReg 2 aluSub (cReg rd) (cReg rd) (cReg rs2) s

/-- C.XOR (48_c.md R854): `x[rd'] <- op(x[rd'], x[rs2'])`. -/
def execCXor (rd : CRegNum) (rs2 : CRegNum) (s : State) : Res :=
  regReg 2 aluXor (cReg rd) (cReg rd) (cReg rs2) s

/-- C.OR (48_c.md R853): `x[rd'] <- op(x[rd'], x[rs2'])`. -/
def execCOr (rd : CRegNum) (rs2 : CRegNum) (s : State) : Res :=
  regReg 2 aluOr (cReg rd) (cReg rd) (cReg rs2) s

/-- C.AND (48_c.md R852): `x[rd'] <- op(x[rd'], x[rs2'])`. -/
def execCAnd (rd : CRegNum) (rs2 : CRegNum) (s : State) : Res :=
  regReg 2 aluAnd (cReg rd) (cReg rd) (cReg rs2) s

/-- C.SUBW (48_c.md R857): the operation on the low words, sign-extended. -/
def execCSubw (rd : CRegNum) (rs2 : CRegNum) (s : State) : Res :=
  regRegW 2 aluSub (cReg rd) (cReg rd) (cReg rs2) s

/-- C.ADDW (48_c.md R856): the operation on the low words, sign-extended. -/
def execCAddw (rd : CRegNum) (rs2 : CRegNum) (s : State) : Res :=
  regRegW 2 aluAdd (cReg rd) (cReg rd) (cReg rs2) s

/-- C.J (48_c.md R830): jump to `pc + off`. -/
def execCJ (off : BitVec 11) (s : State) : Res :=
  jumpRelative 2 0 (cOffJ off) s

/-- C.BEQZ (48_c.md R834): branch to `pc + off` if `x[rs1'] = 0`. -/
def execCBeqz (rs1 : CRegNum) (off : BitVec 8) (s : State) : Res :=
  branch 2 cmpEq (cReg rs1) 0 (cOffB off) s

/-- C.BNEZ (48_c.md R835): branch to `pc + off` if `x[rs1'] != 0`. -/
def execCBnez (rs1 : CRegNum) (off : BitVec 8) (s : State) : Res :=
  branch 2 cmpNe (cReg rs1) 0 (cOffB off) s

/-- C.SLLI (48_c.md R846): `x[rd]` shifted by shamt. -/
def execCSlli (rd : RegNum) (shamt : BitVec 6) (s : State) : Res :=
  regImm 2 aluSll rd rd (shamt.setWidth 64) s

/-- C.FLDSP (48_c.md R813): as FLD from `x2`. -/
def execCFldsp (rd : RegNum) (imm : BitVec 6) (s : State) : Res :=
  loadF 2 .d rd 2 (cOffDsp imm) s

/-- C.LWSP (48_c.md R810): as LW from `x2`. -/
def execCLwsp (rd : RegNum) (imm : BitVec 6) (s : State) : Res :=
  loadX 2 4 .signed rd 2 (cOffWsp imm) s

/-- C.FLWSP (48_c.md R812): as FLW from `x2`. -/
def execCFlwsp (rd : RegNum) (imm : BitVec 6) (s : State) : Res :=
  loadF 2 .s rd 2 (cOffWsp imm) s

/-- C.LDSP (48_c.md R811): as LD from `x2`. -/
def execCLdsp (rd : RegNum) (imm : BitVec 6) (s : State) : Res :=
  loadX 2 8 .signed rd 2 (cOffDsp imm) s

/-- C.JR (48_c.md R832): jump to `x[rs1] & ~1`. -/
def execCJr (rs1 : RegNum) (s : State) : Res :=
  jumpRegister 2 0 rs1 0 s

/-- C.MV (48_c.md R850): `x[rd] <- x[rs2]`, as ADD from `x0`. -/
def execCMv (rd : RegNum) (rs2 : RegNum) (s : State) : Res :=
  regReg 2 aluAdd rd 0 rs2 s

/-- C.EBREAK (48_c.md R860): breakpoint exception. -/
def execCEbreak (s : State) : Res :=
  breakpoint s

/-- C.JALR (48_c.md R833): jump to `x[rs1] & ~1`, link `pc + 2` in `x1`. -/
def execCJalr (rs1 : RegNum) (s : State) : Res :=
  jumpRegister 2 1 rs1 0 s

/-- C.ADD (48_c.md R851): `x[rd] <- x[rd] + x[rs2]`. -/
def execCAdd (rd : RegNum) (rs2 : RegNum) (s : State) : Res :=
  regReg 2 aluAdd rd rd rs2 s

/-- C.FSDSP (48_c.md R817): as FSD from `x2`. -/
def execCFsdsp (rs2 : RegNum) (imm : BitVec 6) (s : State) : Res :=
  storeF 2 .d rs2 2 (cOffDsp imm) s

/-- C.SWSP (48_c.md R814): as SW from `x2`. -/
def execCSwsp (rs2 : RegNum) (imm : BitVec 6) (s : State) : Res :=
  storeX 2 4 rs2 2 (cOffWsp imm) s

/-- C.FSWSP (48_c.md R816): as FSW from `x2`. -/
def execCFswsp (rs2 : RegNum) (imm : BitVec 6) (s : State) : Res :=
  storeF 2 .s rs2 2 (cOffWsp imm) s

/-- C.SDSP (48_c.md R815): as SD from `x2`. -/
def execCSdsp (rs2 : RegNum) (imm : BitVec 6) (s : State) : Res :=
  storeX 2 8 rs2 2 (cOffDsp imm) s

/-- C.NTL.P1 (42_zifencei_hints.md R410): a hint: only the pc and the counters advance. -/
def execCNtlP1 (s : State) : Res :=
  noEffect 2 s

/-- C.NTL.PALL (42_zifencei_hints.md R410): a hint: only the pc and the counters advance. -/
def execCNtlPall (s : State) : Res :=
  noEffect 2 s

/-- C.NTL.S1 (42_zifencei_hints.md R410): a hint: only the pc and the counters advance. -/
def execCNtlS1 (s : State) : Res :=
  noEffect 2 s

/-- C.NTL.ALL (42_zifencei_hints.md R410): a hint: only the pc and the counters advance. -/
def execCNtlAll (s : State) : Res :=
  noEffect 2 s

end Sys2Proof.Machine
end

