-- ==== Sys2Proof/Machine/Control.lean ====
section
/-! DEFINITION. The control-transfer instructions (40_rv32i_base.md R290 to R303). -/

namespace Sys2Proof.Machine

/-- JAL (40_rv32i_base.md R291): jump to `pc + imm`, link in `rd`. -/
def execJal (rd : RegNum) (imm : BitVec 20) (s : State) : Res :=
  jumpRelative 4 rd (immJ imm) s

/-- JALR (40_rv32i_base.md R292): jump to `(x[rs1] + imm) & ~1`, link in `rd`. -/
def execJalr (rd : RegNum) (rs1 : RegNum) (imm : BitVec 12) (s : State) : Res :=
  jumpRegister 4 rd rs1 (imm12 imm) s

/-- BEQ (40_rv32i_base.md R294): branch to `pc + imm` if the comparison holds. -/
def execBeq (rs1 : RegNum) (rs2 : RegNum) (imm : BitVec 12) (s : State) : Res :=
  branch 4 cmpEq rs1 rs2 (immB imm) s

/-- BNE (40_rv32i_base.md R295): branch to `pc + imm` if the comparison holds. -/
def execBne (rs1 : RegNum) (rs2 : RegNum) (imm : BitVec 12) (s : State) : Res :=
  branch 4 cmpNe rs1 rs2 (immB imm) s

/-- BLT (40_rv32i_base.md R296): branch to `pc + imm` if the comparison holds. -/
def execBlt (rs1 : RegNum) (rs2 : RegNum) (imm : BitVec 12) (s : State) : Res :=
  branch 4 cmpLt rs1 rs2 (immB imm) s

/-- BGE (40_rv32i_base.md R297): branch to `pc + imm` if the comparison holds. -/
def execBge (rs1 : RegNum) (rs2 : RegNum) (imm : BitVec 12) (s : State) : Res :=
  branch 4 cmpGe rs1 rs2 (immB imm) s

/-- BLTU (40_rv32i_base.md R298): branch to `pc + imm` if the comparison holds. -/
def execBltu (rs1 : RegNum) (rs2 : RegNum) (imm : BitVec 12) (s : State) : Res :=
  branch 4 cmpLtu rs1 rs2 (immB imm) s

/-- BGEU (40_rv32i_base.md R299): branch to `pc + imm` if the comparison holds. -/
def execBgeu (rs1 : RegNum) (rs2 : RegNum) (imm : BitVec 12) (s : State) : Res :=
  branch 4 cmpGeu rs1 rs2 (immB imm) s

end Sys2Proof.Machine
end

