-- ==== Sys2Proof/Machine/Float.lean ====
section
/-! DEFINITION. IEEE 754-2008 binary arithmetic as 46_f.md R575 to R579 and 47_d.md R661 to R666 state it:
operands are read as exact numbers, results computed exactly, and rounded once. The layout and the
rounding rules are PRESUMED in the sense of the log (entry 26): the spec marks them as general knowledge. -/

namespace Sys2Proof.Machine

/-- The rounding modes (10_state.md R54). -/
inductive Rm where
  | rne | rtz | rdn | rup | rmm
deriving DecidableEq, Repr

/-- A rounding-mode encoding; 101, 110 and 111 name none (10_state.md R54; 46_f.md R572). -/
def rmOfBits (b : BitVec 3) : Option Rm :=
  match b.toNat with
  | 0 => some .rne
  | 1 => some .rtz
  | 2 => some .rdn
  | 3 => some .rup
  | 4 => some .rmm
  | _ => none

/-- The effective rounding mode of an `rm` field: static, or `frm` for 111; none if reserved (46_f.md
R572, R573). -/
def effectiveRm (rm frm : BitVec 3) : Option Rm :=
  if rm = 7 then rmOfBits frm else rmOfBits rm

/-- The bias of a format (47_d.md R661). -/
def fmtBias (t : Fmt) : Nat := 2 ^ (t.expBits - 1) - 1

/-- The precision of a format in bits (47_d.md R661). -/
def fmtPrecision (t : Fmt) : Nat := t.fracBits + 1

/-- `emin` (47_d.md R661). -/
def fmtEmin (t : Fmt) : Int := 1 - (fmtBias t : Int)

/-- `emax` (47_d.md R661). -/
def fmtEmax (t : Fmt) : Int := fmtBias t

/-- The exponent of the last place of a subnormal, `emin - t` (47_d.md R661). -/
def fmtQmin (t : Fmt) : Int := fmtEmin t - t.fracBits

/-- What a bit pattern means (46_f.md R575; 47_d.md R661). -/
inductive FpVal where
  /-- a NaN, signalling or quiet -/
  | nan (signalling : Bool)
  /-- an infinity -/
  | inf (neg : Bool)
  /-- the number `(-1)^neg * m * 2^e`; zero when `m` is 0 -/
  | num (neg : Bool) (m : Nat) (e : Int)
deriving DecidableEq, Repr

/-- The sign bit of a pattern. -/
def fpSign (t : Fmt) (v : FpBits t) : Bool := v.getLsbD (t.width - 1)

/-- The bits of a pattern below the sign. -/
def fpMagnitude (t : Fmt) (v : FpBits t) : Nat := v.toNat % 2 ^ (t.width - 1)

/-- Read a pattern (46_f.md R575; 47_d.md R661). -/
def fpUnpack (t : Fmt) (v : FpBits t) : FpVal :=
  let neg := fpSign t v
  let e := fpMagnitude t v / 2 ^ t.fracBits
  let fr := fpMagnitude t v % 2 ^ t.fracBits
  if e = 2 ^ t.expBits - 1 then
    if fr = 0 then .inf neg else .nan (decide (fr < 2 ^ (t.fracBits - 1)))
  else if e = 0 then .num neg fr (fmtQmin t)
  else .num neg (2 ^ t.fracBits + fr) (fmtQmin t + ((e : Int) - 1))

/-- A pattern from its sign and the bits below it. -/
def fpPack (t : Fmt) (neg : Bool) (mag : Nat) : FpBits t :=
  BitVec.ofNat _ ((if neg then 2 ^ (t.width - 1) else 0) + mag)

/-- A zero. -/
def fpZero (t : Fmt) (neg : Bool) : FpBits t := fpPack t neg 0

/-- An infinity. -/
def fpInf (t : Fmt) (neg : Bool) : FpBits t := fpPack t neg ((2 ^ t.expBits - 1) * 2 ^ t.fracBits)

/-- The largest finite number. -/
def fpMaxFinite (t : Fmt) (neg : Bool) : FpBits t :=
  fpPack t neg ((2 ^ t.expBits - 1) * 2 ^ t.fracBits - 1)

/-- A result and the flags it raises. -/
abbrev FpRes (t : Fmt) := FpBits t × FpFlags

/-- The default result of an invalid operation (46_f.md R577). -/
def fpInvalid (t : Fmt) : FpRes t := (canonicalNaN t, flagNV)

/-- The result of an operation with a NaN operand and no other invalid condition: the canonical NaN, NV if
a NaN is signalling (46_f.md R574, R577). -/
def fpNaN (t : Fmt) (signalling : Bool) : FpRes t := (canonicalNaN t, flagIf signalling flagNV)

/-! ### Rounding -/

/-- Whether rounding `q + rem / 2^k` to an integer goes up in magnitude, `twice = 2 * rem` compared with
`unit = 2^k` (46_f.md R576). -/
def roundsUp (rm : Rm) (neg : Bool) (q twice unit : Nat) : Bool :=
  match rm with
  | .rne => decide (unit < twice) || (decide (twice = unit) && decide (q % 2 = 1))
  | .rtz => false
  | .rdn => neg && decide (0 < twice)
  | .rup => !neg && decide (0 < twice)
  | .rmm => decide (unit ≤ twice)

/-- The magnitude `m / 2^k` rounded to an integer, by the mode and the sign (46_f.md R576). -/
def roundShift (rm : Rm) (neg : Bool) (m k : Nat) : Nat :=
  let q := m / 2 ^ k
  q + (if roundsUp rm neg q (2 * (m % 2 ^ k)) (2 ^ k) then 1 else 0)

/-- The magnitude `m * 2^e` rounded to a multiple of `2^g`, in units of `2^g`. -/
def roundToGrid (rm : Rm) (neg : Bool) (m : Nat) (e g : Int) : Nat :=
  if g ≤ e then m * 2 ^ (e - g).toNat else roundShift rm neg m (g - e).toNat

/-- Whether `m * 2^e` is not a multiple of `2^g`. -/
def offGrid (m : Nat) (e g : Int) : Bool :=
  if g ≤ e then false else m % 2 ^ (g - e).toNat != 0

/-- The result of an overflow, by the mode and the sign (46_f.md R576). -/
def fpOverflow (t : Fmt) (rm : Rm) (neg : Bool) : FpRes t :=
  let toInf := match rm with
    | .rne => true
    | .rmm => true
    | .rtz => false
    | .rdn => neg
    | .rup => !neg
  (if toInf then fpInf t neg else fpMaxFinite t neg, flagOF ||| flagNX)

/-- `round_F(RM, x)` of a non-zero number `x = (-1)^neg * m * 2^e` (46_f.md R576, R579; 47_d.md R662):
rounding to `p` bits with unbounded exponent decides overflow and tininess (detected after rounding);
the delivered result is rounded once, to the format's grid. -/
def fpRoundNonzero (t : Fmt) (rm : Rm) (neg : Bool) (m : Nat) (e : Int) : FpRes t :=
  let lead : Int := e + Nat.log2 m
  let gridU : Int := lead - t.fracBits
  let mU := roundToGrid rm neg m e gridU
  let leadU : Int := if mU = 2 ^ fmtPrecision t then lead + 1 else lead
  if fmtEmax t < leadU then fpOverflow t rm neg
  else
    let grid : Int := max gridU (fmtQmin t)
    let r := roundToGrid rm neg m e grid
    let inexact := offGrid m e grid
    let tiny := decide (leadU < fmtEmin t)
    (fpPack t neg ((grid - fmtQmin t).toNat * 2 ^ t.fracBits + r),
      flagIf inexact flagNX ||| flagIf (tiny && inexact) flagUF)

/-- `round_F(RM, x)` of a number, with the sign of an exact zero (46_f.md R576). -/
def fpRound (t : Fmt) (rm : Rm) (neg : Bool) (m : Nat) (e : Int) : FpRes t :=
  if m = 0 then (fpZero t neg, flagsNone) else fpRoundNonzero t rm neg m e

/-! ### Arithmetic -/

/-- A signed magnitude as an integer. -/
def signedMag (neg : Bool) (m : Nat) : Int := if neg then -(m : Int) else m

/-- The exact sum of two numbers, rounded once; the sign of an exact zero sum is that of the operands if
they agree, else negative under RDN only (46_f.md R576). -/
def fpSumNum (t : Fmt) (rm : Rm) (na : Bool) (ma : Nat) (ea : Int) (nb : Bool) (mb : Nat) (eb : Int) : FpRes t :=
  let e := min ea eb
  let sum := signedMag na (ma * 2 ^ (ea - e).toNat) + signedMag nb (mb * 2 ^ (eb - e).toNat)
  if sum = 0 then (fpZero t (if na = nb then na else decide (rm = .rdn)), flagsNone)
  else fpRoundNonzero t rm (decide (sum < 0)) sum.natAbs e

/-- The sum of two values (46_f.md R576, R577, R585). -/
def fpSumVal (t : Fmt) (rm : Rm) (a b : FpVal) : FpRes t :=
  match a, b with
  | .nan sa, .nan sb => fpNaN t (sa || sb)
  | .nan sa, _ => fpNaN t sa
  | _, .nan sb => fpNaN t sb
  | .inf na, .inf nb => if na = nb then (fpInf t na, flagsNone) else fpInvalid t
  | .inf na, .num .. => (fpInf t na, flagsNone)
  | .num .., .inf nb => (fpInf t nb, flagsNone)
  | .num na ma ea, .num nb mb eb => fpSumNum t rm na ma ea nb mb eb

/-- The value with the opposite sign. -/
def fpNegVal (a : FpVal) : FpVal :=
  match a with
  | .nan s => .nan s
  | .inf n => .inf (!n)
  | .num n m e => .num (!n) m e

/-- Addition (46_f.md R585). -/
def fpAdd (t : Fmt) (rm : Rm) (a b : FpBits t) : FpRes t :=
  fpSumVal t rm (fpUnpack t a) (fpUnpack t b)

/-- Subtraction (46_f.md R586). -/
def fpSub (t : Fmt) (rm : Rm) (a b : FpBits t) : FpRes t :=
  fpSumVal t rm (fpUnpack t a) (fpNegVal (fpUnpack t b))

/-- An exact product, or why there is none: an invalid `0 * inf` (46_f.md R577). -/
inductive FpProduct where
  | value (v : FpVal)
  | invalid
deriving DecidableEq, Repr

/-- The exact product of two values (46_f.md R576, R577). -/
def fpProduct (a b : FpVal) : FpProduct :=
  match a, b with
  | .nan sa, .nan sb => .value (.nan (sa || sb))
  | .nan sa, _ => .value (.nan sa)
  | _, .nan sb => .value (.nan sb)
  | .inf na, .inf nb => .value (.inf (na != nb))
  | .inf na, .num nb mb _ => if mb = 0 then .invalid else .value (.inf (na != nb))
  | .num na ma _, .inf nb => if ma = 0 then .invalid else .value (.inf (na != nb))
  | .num na ma ea, .num nb mb eb => .value (.num (na != nb) (ma * mb) (ea + eb))

/-- Multiplication (46_f.md R587). -/
def fpMul (t : Fmt) (rm : Rm) (a b : FpBits t) : FpRes t :=
  match fpProduct (fpUnpack t a) (fpUnpack t b) with
  | .invalid => fpInvalid t
  | .value (.nan s) => fpNaN t s
  | .value (.inf n) => (fpInf t n, flagsNone)
  | .value (.num n m e) => fpRound t rm n m e

/-- The quotient of two non-zero numbers: enough quotient bits that one further bit, set exactly when the
division has a remainder, decides every rounding (46_f.md R576, R588). -/
def fpQuotient (t : Fmt) (rm : Rm) (neg : Bool) (ma : Nat) (ea : Int) (mb : Nat) (eb : Int) : FpRes t :=
  let k := fmtPrecision t + 3 + Nat.log2 mb
  let n := ma * 2 ^ k
  let sticky := if n % mb = 0 then 0 else 1
  fpRoundNonzero t rm neg (2 * (n / mb) + sticky) (ea - eb - k - 1)

/-- Division (46_f.md R588). -/
def fpDiv (t : Fmt) (rm : Rm) (a b : FpBits t) : FpRes t :=
  match fpUnpack t a, fpUnpack t b with
  | .nan sa, .nan sb => fpNaN t (sa || sb)
  | .nan sa, _ => fpNaN t sa
  | _, .nan sb => fpNaN t sb
  | .inf _, .inf _ => fpInvalid t
  | .inf na, .num nb _ _ => (fpInf t (na != nb), flagsNone)
  | .num na _ _, .inf nb => (fpZero t (na != nb), flagsNone)
  | .num na ma ea, .num nb mb eb =>
    if mb = 0 then
      if ma = 0 then fpInvalid t else (fpInf t (na != nb), flagDZ)
    else if ma = 0 then (fpZero t (na != nb), flagsNone)
    else fpQuotient t rm (na != nb) ma ea mb eb

/-- Extend a partial square root `r` by the bits below `2^bits`, keeping its square at most `n`. -/
def isqrtFrom : Nat → Nat → Nat → Nat
  | 0, r, _ => r
  | bits + 1, r, n =>
    let c := r + 2 ^ bits
    isqrtFrom bits (if c * c ≤ n then c else r) n

/-- The integer square root: the largest `r` with `r * r ≤ n`. -/
def isqrt (n : Nat) : Nat := isqrtFrom (Nat.log2 n / 2 + 1) 0 n

/-- The square root of a non-zero number, with a last bit that is set exactly when the root is not exact
(46_f.md R576, R589). -/
def fpRoot (t : Fmt) (rm : Rm) (m : Nat) (e : Int) : FpRes t :=
  let k := 2 * (fmtPrecision t + 2) + (e % 2).toNat
  let n := m * 2 ^ k
  let r := isqrt n
  let sticky := if r * r = n then 0 else 1
  fpRoundNonzero t rm false (2 * r + sticky) ((e - k) / 2 - 1)

/-- Square root (46_f.md R589). -/
def fpSqrt (t : Fmt) (rm : Rm) (a : FpBits t) : FpRes t :=
  match fpUnpack t a with
  | .nan s => fpNaN t s
  | .inf false => (fpInf t false, flagsNone)
  | .inf true => fpInvalid t
  | .num n m e =>
    if m = 0 then (fpZero t n, flagsNone)
    else if n then fpInvalid t
    else fpRoot t rm m e

/-- The flag a NaN among three operands raises. -/
def isSignalling (v : FpVal) : Bool :=
  match v with
  | .nan s => s
  | .inf _ => false
  | .num .. => false

/-- `round(±(a * b) ± c)`: the product and the sum exact, rounded once; an invalid product raises NV even
when the addend is a quiet NaN (46_f.md R592). -/
def fpFused (t : Fmt) (rm : Rm) (negProduct negAddend : Bool) (a b c : FpBits t) : FpRes t :=
  let vc := if negAddend then fpNegVal (fpUnpack t c) else fpUnpack t c
  match fpProduct (fpUnpack t a) (fpUnpack t b) with
  | .invalid => fpInvalid t
  | .value p => fpSumVal t rm (if negProduct then fpNegVal p else p) vc

/-- FMADD: `a * b + c` (46_f.md R593). -/
def fpMadd (t : Fmt) (rm : Rm) (a b c : FpBits t) : FpRes t := fpFused t rm false false a b c

/-- FMSUB: `a * b - c` (46_f.md R594). -/
def fpMsub (t : Fmt) (rm : Rm) (a b c : FpBits t) : FpRes t := fpFused t rm false true a b c

/-- FNMSUB: `-(a * b) + c` (46_f.md R595). -/
def fpNmsub (t : Fmt) (rm : Rm) (a b c : FpBits t) : FpRes t := fpFused t rm true false a b c

/-- FNMADD: `-(a * b) - c` (46_f.md R596). -/
def fpNmadd (t : Fmt) (rm : Rm) (a b c : FpBits t) : FpRes t := fpFused t rm true true a b c

/-! ### Comparison, minimum, maximum, sign injection, classification -/

/-- Whether a pattern is a NaN. -/
def fpIsNaN (t : Fmt) (v : FpBits t) : Bool :=
  match fpUnpack t v with
  | .nan _ => true
  | .inf _ => false
  | .num .. => false

/-- Whether a pattern is a signalling NaN. -/
def fpIsSNaN (t : Fmt) (v : FpBits t) : Bool := isSignalling (fpUnpack t v)

/-- An integer that orders the non-NaN values of a format as the numbers they are, both zeros at 0:
the bits below the sign rise with the magnitude (46_f.md R575; comparison R615, entry 26). -/
def fpKey (t : Fmt) (v : FpBits t) : Int := signedMag (fpSign t v) (fpMagnitude t v)

/-- Less-than extended with `-0.0 < +0.0`, for FMIN and FMAX (46_f.md R590). -/
def fpLtZeros (t : Fmt) (a b : FpBits t) : Bool :=
  decide (fpKey t a < fpKey t b) || (decide (fpKey t a = fpKey t b) && fpSign t a && !fpSign t b)

/-- FMIN (46_f.md R590). -/
def fpMin (t : Fmt) (a b : FpBits t) : FpRes t :=
  (if fpIsNaN t a && fpIsNaN t b then canonicalNaN t
   else if fpIsNaN t a then b
   else if fpIsNaN t b then a
   else if fpLtZeros t a b then a else b,
   flagIf (fpIsSNaN t a || fpIsSNaN t b) flagNV)

/-- FMAX (46_f.md R591). -/
def fpMax (t : Fmt) (a b : FpBits t) : FpRes t :=
  (if fpIsNaN t a && fpIsNaN t b then canonicalNaN t
   else if fpIsNaN t a then b
   else if fpIsNaN t b then a
   else if fpLtZeros t a b then b else a,
   flagIf (fpIsSNaN t a || fpIsSNaN t b) flagNV)

/-- FEQ: quiet comparison (46_f.md R615). -/
def fpEq (t : Fmt) (a b : FpBits t) : Bool × FpFlags :=
  if fpIsNaN t a || fpIsNaN t b then (false, flagIf (fpIsSNaN t a || fpIsSNaN t b) flagNV)
  else (decide (fpKey t a = fpKey t b), flagsNone)

/-- FLT: signalling comparison (46_f.md R616). -/
def fpLt (t : Fmt) (a b : FpBits t) : Bool × FpFlags :=
  if fpIsNaN t a || fpIsNaN t b then (false, flagNV)
  else (decide (fpKey t a < fpKey t b), flagsNone)

/-- FLE: signalling comparison (46_f.md R617). -/
def fpLe (t : Fmt) (a b : FpBits t) : Bool × FpFlags :=
  if fpIsNaN t a || fpIsNaN t b then (false, flagNV)
  else (decide (fpKey t a ≤ fpKey t b), flagsNone)

/-- All bits but the sign from `a`, and the given sign (46_f.md R610). -/
def fpWithSign (t : Fmt) (neg : Bool) (a : FpBits t) : FpBits t := fpPack t neg (fpMagnitude t a)

/-- FSGNJ (46_f.md R610). -/
def fpSgnj (t : Fmt) (a b : FpBits t) : FpRes t := (fpWithSign t (fpSign t b) a, flagsNone)

/-- FSGNJN (46_f.md R611). -/
def fpSgnjn (t : Fmt) (a b : FpBits t) : FpRes t := (fpWithSign t (!fpSign t b) a, flagsNone)

/-- FSGNJX (46_f.md R612). -/
def fpSgnjx (t : Fmt) (a b : FpBits t) : FpRes t :=
  (fpWithSign t (fpSign t a != fpSign t b) a, flagsNone)

/-- The bit number of the class of a pattern (46_f.md R618, Table 13.5). -/
def fpClassBit (t : Fmt) (v : FpBits t) : Nat :=
  let subnormal := decide (fpMagnitude t v / 2 ^ t.fracBits = 0)
  match fpUnpack t v with
  | .inf true => 0
  | .inf false => 7
  | .nan true => 8
  | .nan false => 9
  | .num true m _ => if m = 0 then 3 else if subnormal then 2 else 1
  | .num false m _ => if m = 0 then 4 else if subnormal then 5 else 6

/-! ### Conversions -/

/-- The integer types of the conversions (46_f.md R600). -/
inductive IntTy where
  | w | wu | l | lu
deriving DecidableEq, Repr

/-- The least valid result of a conversion to an integer type (46_f.md R600, Table 13.4). -/
def intTyMin (k : IntTy) : Int :=
  match k with
  | .w => -(2 ^ 31)
  | .wu => 0
  | .l => -(2 ^ 63)
  | .lu => 0

/-- The greatest valid result of a conversion to an integer type (46_f.md R600, Table 13.4). -/
def intTyMax (k : IntTy) : Int :=
  match k with
  | .w => 2 ^ 31 - 1
  | .wu => 2 ^ 32 - 1
  | .l => 2 ^ 63 - 1
  | .lu => 2 ^ 64 - 1

/-- `cvt_int`: NaN and infinities and values out of range after rounding give the nearest limit with NV,
others the rounded value, with NX if it differs (46_f.md R600). -/
def fpToIntVal (t : Fmt) (k : IntTy) (rm : Rm) (v : FpBits t) : Int × FpFlags :=
  match fpUnpack t v with
  | .nan _ => (intTyMax k, flagNV)
  | .inf true => (intTyMin k, flagNV)
  | .inf false => (intTyMax k, flagNV)
  | .num n m e =>
    let r := signedMag n (roundToGrid rm n m e 0)
    if r < intTyMin k then (intTyMin k, flagNV)
    else if intTyMax k < r then (intTyMax k, flagNV)
    else (r, flagIf (offGrid m e 0) flagNX)

/-- The result of a conversion as a register value: 32-bit results are sign-extended, also the unsigned
ones (46_f.md R601 to R604). -/
def intResult (c : Xlen) (k : IntTy) (r : Int) : Word :=
  match k with
  | .w => sextX c (BitVec.ofInt 32 r)
  | .wu => sextX c (BitVec.ofInt 32 r)
  | .l => truncX c (BitVec.ofInt 64 r)
  | .lu => truncX c (BitVec.ofInt 64 r)

/-- The integer an integer register supplies to a conversion (46_f.md R605 to R608). -/
def intOperand (k : IntTy) (v : Word) : Int :=
  match k with
  | .w => (v.setWidth 32).toInt
  | .wu => (v.setWidth 32).toNat
  | .l => v.toInt
  | .lu => v.toNat

/-- An integer rounded to a format; 0 gives +0 (46_f.md R605 to R608). -/
def fpOfInt (t : Fmt) (rm : Rm) (i : Int) : FpRes t :=
  fpRound t rm (decide (i < 0)) i.natAbs 0

/-- `cvt_F`: conversion between formats (47_d.md R665). -/
def fpConvert (g t : Fmt) (rm : Rm) (v : FpBits g) : FpRes t :=
  match fpUnpack g v with
  | .nan s => fpNaN t s
  | .inf n => (fpInf t n, flagsNone)
  | .num n m e => fpRound t rm n m e

end Sys2Proof.Machine
end

