-- ==== Sys2Proof/Machine/FloatOps.lean ====
section
/-! DEFINITION. The shared shapes of the floating-point instructions: operands, rounding-mode check, result,
flags and retirement (46_f.md R570, R572, R573; 49_zfinx_ztso_other.md R912). `bits` is the instruction's
own encoding, which an illegal-instruction exception reports (60_exceptions.md R946). -/

namespace Sys2Proof.Machine

/-- A result of a format: written, its flags accrued, in the same step (46_f.md R577). -/
def finishFp (t : Fmt) (rd : RegNum) (r : FpRes t) (s : State) : Res :=
  retire 4 (accrue r.2 (writeFp t rd r.1 s))

/-- A result in an integer register, its flags accrued. -/
def finishInt (rd : RegNum) (v : Word) (fl : FpFlags) (s : State) : Res :=
  retire 4 (accrue fl (writeX rd v s))

/-- An instruction that carries an `rm` field: a reserved effective rounding mode is an illegal
instruction, and nothing is written (46_f.md R573, D14). -/
def withRm (rm : BitVec 3) (bits : InstrWord) (s : State) (body : Rm → Res) : Res :=
  match effectiveRm rm s.frm with
  | none => illegal bits s
  | some m => body m

/-- Two operands, rounding (FADD, FSUB, FMUL, FDIV). -/
def fpBinary (t : Fmt) (op : Rm → FpBits t → FpBits t → FpRes t) (rd rs1 rs2 : RegNum) (rm : BitVec 3)
    (bits : InstrWord) (s : State) : Res :=
  withRm rm bits s (fun m => finishFp t rd (op m (readFp t rs1 s) (readFp t rs2 s)) s)

/-- One operand, rounding (FSQRT). -/
def fpUnary (t : Fmt) (op : Rm → FpBits t → FpRes t) (rd rs1 : RegNum) (rm : BitVec 3)
    (bits : InstrWord) (s : State) : Res :=
  withRm rm bits s (fun m => finishFp t rd (op m (readFp t rs1 s)) s)

/-- Three operands, rounding (the fused multiply-add instructions, 46_f.md R592). -/
def fpTernary (t : Fmt) (op : Rm → FpBits t → FpBits t → FpBits t → FpRes t) (rd rs1 rs2 rs3 : RegNum)
    (rm : BitVec 3) (bits : InstrWord) (s : State) : Res :=
  withRm rm bits s (fun m =>
    finishFp t rd (op m (readFp t rs1 s) (readFp t rs2 s) (readFp t rs3 s)) s)

/-- Two operands, no rounding mode (FMIN, FMAX, FSGNJ*). -/
def fpSelect (t : Fmt) (op : FpBits t → FpBits t → FpRes t) (rd rs1 rs2 : RegNum) (s : State) : Res :=
  finishFp t rd (op (readFp t rs1 s) (readFp t rs2 s)) s

/-- A comparison: 1 or 0 in the integer register (46_f.md R615). -/
def fpCompare (t : Fmt) (op : FpBits t → FpBits t → Bool × FpFlags) (rd rs1 rs2 : RegNum) (s : State) : Res :=
  let r := op (readFp t rs1 s) (readFp t rs2 s)
  finishInt rd (if r.1 then 1 else 0) r.2 s

/-- FCLASS: the one-hot class mask, no flags (46_f.md R618). -/
def fpClassify (t : Fmt) (rd rs1 : RegNum) (s : State) : Res :=
  finishInt rd (BitVec.ofNat 64 (2 ^ fpClassBit t (readFp t rs1 s))) flagsNone s

/-- FCVT to an integer type (46_f.md R600 to R604). -/
def fpToInt (t : Fmt) (k : IntTy) (rd rs1 : RegNum) (rm : BitVec 3) (bits : InstrWord) (s : State) : Res :=
  withRm rm bits s (fun m =>
    let r := fpToIntVal t k m (readFp t rs1 s)
    finishInt rd (intResult s.cfg.xlen k r.1) r.2 s)

/-- FCVT from an integer type (46_f.md R605 to R608). -/
def fpFromInt (t : Fmt) (k : IntTy) (rd rs1 : RegNum) (rm : BitVec 3) (bits : InstrWord) (s : State) : Res :=
  withRm rm bits s (fun m => finishFp t rd (fpOfInt t m (intOperand k (readX rs1 s))) s)

/-- FCVT from format `g` to format `t` (47_d.md R665). -/
def fpToFp (g t : Fmt) (rd rs1 : RegNum) (rm : BitVec 3) (bits : InstrWord) (s : State) : Res :=
  withRm rm bits s (fun m => finishFp t rd (fpConvert g t m (readFp g rs1 s)) s)

/-- FMV.X.*: the low bits of the `f` register, sign-extended, no check (46_f.md R613; 10_state.md R59). -/
def moveToX (t : Fmt) (rd rs1 : RegNum) (s : State) : Res :=
  retire 4 (writeX rd (sextX s.cfg.xlen (readFRaw t rs1 s)) s)

/-- FMV.*.X: the low bits of the integer register, boxed (46_f.md R614; 10_state.md R59). -/
def moveFromX (t : Fmt) (rd rs1 : RegNum) (s : State) : Res :=
  retire 4 (writeFBoxed t rd ((readX rs1 s).setWidth t.width) s)

end Sys2Proof.Machine
end

