-- ==== Sys2Proof/Machine/FloatD.lean ====
section
/-! DEFINITION. The double-precision instructions (47_d.md). -/

namespace Sys2Proof.Machine

/-- FLD (47_d.md R670): load, boxed, bits unmodified. -/
def execFld (rd : RegNum) (rs1 : RegNum) (imm : BitVec 12) (s : State) : Res :=
  loadF 4 .d rd rs1 (imm12 imm) s

/-- FSD (47_d.md R671): store, bits unmodified. -/
def execFsd (rs2 : RegNum) (rs1 : RegNum) (imm : BitVec 12) (s : State) : Res :=
  storeF 4 .d rs2 rs1 (imm12 imm) s

/-- FMADD.D (47_d.md R679): fused multiply-add, rounded once. -/
def execFmaddD (rd : RegNum) (rs1 : RegNum) (rs2 : RegNum) (rs3 : RegNum) (rm : BitVec 3) (s : State) : Res :=
  fpTernary .d (fpMadd .d) rd rs1 rs2 rs3 rm (encode (.fmaddD rd rs1 rs2 rs3 rm)) s

/-- FMSUB.D (47_d.md R680): fused multiply-add, rounded once. -/
def execFmsubD (rd : RegNum) (rs1 : RegNum) (rs2 : RegNum) (rs3 : RegNum) (rm : BitVec 3) (s : State) : Res :=
  fpTernary .d (fpMsub .d) rd rs1 rs2 rs3 rm (encode (.fmsubD rd rs1 rs2 rs3 rm)) s

/-- FNMSUB.D (47_d.md R681): fused multiply-add, rounded once. -/
def execFnmsubD (rd : RegNum) (rs1 : RegNum) (rs2 : RegNum) (rs3 : RegNum) (rm : BitVec 3) (s : State) : Res :=
  fpTernary .d (fpNmsub .d) rd rs1 rs2 rs3 rm (encode (.fnmsubD rd rs1 rs2 rs3 rm)) s

/-- FNMADD.D (47_d.md R682): fused multiply-add, rounded once. -/
def execFnmaddD (rd : RegNum) (rs1 : RegNum) (rs2 : RegNum) (rs3 : RegNum) (rm : BitVec 3) (s : State) : Res :=
  fpTernary .d (fpNmadd .d) rd rs1 rs2 rs3 rm (encode (.fnmaddD rd rs1 rs2 rs3 rm)) s

/-- FADD.D (47_d.md R672): rounded once, flags accrued. -/
def execFaddD (rd : RegNum) (rs1 : RegNum) (rs2 : RegNum) (rm : BitVec 3) (s : State) : Res :=
  fpBinary .d (fpAdd .d) rd rs1 rs2 rm (encode (.faddD rd rs1 rs2 rm)) s

/-- FSUB.D (47_d.md R673): rounded once, flags accrued. -/
def execFsubD (rd : RegNum) (rs1 : RegNum) (rs2 : RegNum) (rm : BitVec 3) (s : State) : Res :=
  fpBinary .d (fpSub .d) rd rs1 rs2 rm (encode (.fsubD rd rs1 rs2 rm)) s

/-- FMUL.D (47_d.md R674): rounded once, flags accrued. -/
def execFmulD (rd : RegNum) (rs1 : RegNum) (rs2 : RegNum) (rm : BitVec 3) (s : State) : Res :=
  fpBinary .d (fpMul .d) rd rs1 rs2 rm (encode (.fmulD rd rs1 rs2 rm)) s

/-- FDIV.D (47_d.md R675): rounded once, flags accrued. -/
def execFdivD (rd : RegNum) (rs1 : RegNum) (rs2 : RegNum) (rm : BitVec 3) (s : State) : Res :=
  fpBinary .d (fpDiv .d) rd rs1 rs2 rm (encode (.fdivD rd rs1 rs2 rm)) s

/-- FSQRT.D (47_d.md R676): square root, rounded once, flags accrued. -/
def execFsqrtD (rd : RegNum) (rs1 : RegNum) (rm : BitVec 3) (s : State) : Res :=
  fpUnary .d (fpSqrt .d) rd rs1 rm (encode (.fsqrtD rd rs1 rm)) s

/-- FSGNJ.D (47_d.md R693): the bits of `rs1` with the sign the two signs give. -/
def execFsgnjD (rd : RegNum) (rs1 : RegNum) (rs2 : RegNum) (s : State) : Res :=
  fpSelect .d (fpSgnj .d) rd rs1 rs2 s

/-- FSGNJN.D (47_d.md R694): the bits of `rs1` with the sign the two signs give. -/
def execFsgnjnD (rd : RegNum) (rs1 : RegNum) (rs2 : RegNum) (s : State) : Res :=
  fpSelect .d (fpSgnjn .d) rd rs1 rs2 s

/-- FSGNJX.D (47_d.md R695): the bits of `rs1` with the sign the two signs give. -/
def execFsgnjxD (rd : RegNum) (rs1 : RegNum) (rs2 : RegNum) (s : State) : Res :=
  fpSelect .d (fpSgnjx .d) rd rs1 rs2 s

/-- FMIN.D (47_d.md R677): the smaller operand. -/
def execFminD (rd : RegNum) (rs1 : RegNum) (rs2 : RegNum) (s : State) : Res :=
  fpSelect .d (fpMin .d) rd rs1 rs2 s

/-- FMAX.D (47_d.md R678): the larger operand. -/
def execFmaxD (rd : RegNum) (rs1 : RegNum) (rs2 : RegNum) (s : State) : Res :=
  fpSelect .d (fpMax .d) rd rs1 rs2 s

/-- FCVT.W.D (47_d.md R683): to an integer type. -/
def execFcvtWD (rd : RegNum) (rs1 : RegNum) (rm : BitVec 3) (s : State) : Res :=
  fpToInt .d .w rd rs1 rm (encode (.fcvtWD rd rs1 rm)) s

/-- FCVT.WU.D (47_d.md R684): to an integer type. -/
def execFcvtWuD (rd : RegNum) (rs1 : RegNum) (rm : BitVec 3) (s : State) : Res :=
  fpToInt .d .wu rd rs1 rm (encode (.fcvtWuD rd rs1 rm)) s

/-- FCVT.L.D (47_d.md R685): to an integer type. -/
def execFcvtLD (rd : RegNum) (rs1 : RegNum) (rm : BitVec 3) (s : State) : Res :=
  fpToInt .d .l rd rs1 rm (encode (.fcvtLD rd rs1 rm)) s

/-- FCVT.LU.D (47_d.md R686): to an integer type. -/
def execFcvtLuD (rd : RegNum) (rs1 : RegNum) (rm : BitVec 3) (s : State) : Res :=
  fpToInt .d .lu rd rs1 rm (encode (.fcvtLuD rd rs1 rm)) s

/-- FCVT.D.W (47_d.md R687): from an integer type. -/
def execFcvtDW (rd : RegNum) (rs1 : RegNum) (rm : BitVec 3) (s : State) : Res :=
  fpFromInt .d .w rd rs1 rm (encode (.fcvtDW rd rs1 rm)) s

/-- FCVT.D.WU (47_d.md R688): from an integer type. -/
def execFcvtDWu (rd : RegNum) (rs1 : RegNum) (rm : BitVec 3) (s : State) : Res :=
  fpFromInt .d .wu rd rs1 rm (encode (.fcvtDWu rd rs1 rm)) s

/-- FCVT.D.L (47_d.md R689): from an integer type. -/
def execFcvtDL (rd : RegNum) (rs1 : RegNum) (rm : BitVec 3) (s : State) : Res :=
  fpFromInt .d .l rd rs1 rm (encode (.fcvtDL rd rs1 rm)) s

/-- FCVT.D.LU (47_d.md R690): from an integer type. -/
def execFcvtDLu (rd : RegNum) (rs1 : RegNum) (rm : BitVec 3) (s : State) : Res :=
  fpFromInt .d .lu rd rs1 rm (encode (.fcvtDLu rd rs1 rm)) s

/-- FEQ.D (47_d.md R698): 1 or 0 in `x[rd]`. -/
def execFeqD (rd : RegNum) (rs1 : RegNum) (rs2 : RegNum) (s : State) : Res :=
  fpCompare .d (fpEq .d) rd rs1 rs2 s

/-- FLT.D (47_d.md R699): 1 or 0 in `x[rd]`. -/
def execFltD (rd : RegNum) (rs1 : RegNum) (rs2 : RegNum) (s : State) : Res :=
  fpCompare .d (fpLt .d) rd rs1 rs2 s

/-- FLE.D (47_d.md R700): 1 or 0 in `x[rd]`. -/
def execFleD (rd : RegNum) (rs1 : RegNum) (rs2 : RegNum) (s : State) : Res :=
  fpCompare .d (fpLe .d) rd rs1 rs2 s

/-- FCLASS.D (47_d.md R701): the class mask in `x[rd]`. -/
def execFclassD (rd : RegNum) (rs1 : RegNum) (s : State) : Res :=
  fpClassify .d rd rs1 s

/-- FCVT.S.D (47_d.md R691): between formats. -/
def execFcvtSD (rd : RegNum) (rs1 : RegNum) (rm : BitVec 3) (s : State) : Res :=
  fpToFp .d .s rd rs1 rm (encode (.fcvtSD rd rs1 rm)) s

/-- FCVT.D.S (47_d.md R692): between formats. -/
def execFcvtDS (rd : RegNum) (rs1 : RegNum) (rm : BitVec 3) (s : State) : Res :=
  fpToFp .s .d rd rs1 rm (encode (.fcvtDS rd rs1 rm)) s

/-- FMV.X.D (47_d.md R696): the low bits, sign-extended, to `x[rd]`. -/
def execFmvXD (rd : RegNum) (rs1 : RegNum) (s : State) : Res :=
  moveToX .d rd rs1 s

/-- FMV.D.X (47_d.md R697): the low bits of `x[rs1]`, boxed. -/
def execFmvDX (rd : RegNum) (rs1 : RegNum) (s : State) : Res :=
  moveFromX .d rd rs1 s

end Sys2Proof.Machine
end

