-- ==== Sys2Proof/Machine/FloatH.lean ====
section
/-! DEFINITION. The half-precision instructions (47_zfh_zfhmin.md). -/

namespace Sys2Proof.Machine

/-- FLH (47_zfh_zfhmin.md R750): load, boxed, bits unmodified. -/
def execFlh (rd : RegNum) (rs1 : RegNum) (imm : BitVec 12) (s : State) : Res :=
  loadF 4 .h rd rs1 (imm12 imm) s

/-- FSH (47_zfh_zfhmin.md R751): store, bits unmodified. -/
def execFsh (rs2 : RegNum) (rs1 : RegNum) (imm : BitVec 12) (s : State) : Res :=
  storeF 4 .h rs2 rs1 (imm12 imm) s

/-- FMADD.H (47_zfh_zfhmin.md R759): fused multiply-add, rounded once. -/
def execFmaddH (rd : RegNum) (rs1 : RegNum) (rs2 : RegNum) (rs3 : RegNum) (rm : BitVec 3) (s : State) : Res :=
  fpTernary .h (fpMadd .h) rd rs1 rs2 rs3 rm (encode (.fmaddH rd rs1 rs2 rs3 rm)) s

/-- FMSUB.H (47_zfh_zfhmin.md R760): fused multiply-add, rounded once. -/
def execFmsubH (rd : RegNum) (rs1 : RegNum) (rs2 : RegNum) (rs3 : RegNum) (rm : BitVec 3) (s : State) : Res :=
  fpTernary .h (fpMsub .h) rd rs1 rs2 rs3 rm (encode (.fmsubH rd rs1 rs2 rs3 rm)) s

/-- FNMSUB.H (47_zfh_zfhmin.md R761): fused multiply-add, rounded once. -/
def execFnmsubH (rd : RegNum) (rs1 : RegNum) (rs2 : RegNum) (rs3 : RegNum) (rm : BitVec 3) (s : State) : Res :=
  fpTernary .h (fpNmsub .h) rd rs1 rs2 rs3 rm (encode (.fnmsubH rd rs1 rs2 rs3 rm)) s

/-- FNMADD.H (47_zfh_zfhmin.md R762): fused multiply-add, rounded once. -/
def execFnmaddH (rd : RegNum) (rs1 : RegNum) (rs2 : RegNum) (rs3 : RegNum) (rm : BitVec 3) (s : State) : Res :=
  fpTernary .h (fpNmadd .h) rd rs1 rs2 rs3 rm (encode (.fnmaddH rd rs1 rs2 rs3 rm)) s

/-- FADD.H (47_zfh_zfhmin.md R752): rounded once, flags accrued. -/
def execFaddH (rd : RegNum) (rs1 : RegNum) (rs2 : RegNum) (rm : BitVec 3) (s : State) : Res :=
  fpBinary .h (fpAdd .h) rd rs1 rs2 rm (encode (.faddH rd rs1 rs2 rm)) s

/-- FSUB.H (47_zfh_zfhmin.md R753): rounded once, flags accrued. -/
def execFsubH (rd : RegNum) (rs1 : RegNum) (rs2 : RegNum) (rm : BitVec 3) (s : State) : Res :=
  fpBinary .h (fpSub .h) rd rs1 rs2 rm (encode (.fsubH rd rs1 rs2 rm)) s

/-- FMUL.H (47_zfh_zfhmin.md R754): rounded once, flags accrued. -/
def execFmulH (rd : RegNum) (rs1 : RegNum) (rs2 : RegNum) (rm : BitVec 3) (s : State) : Res :=
  fpBinary .h (fpMul .h) rd rs1 rs2 rm (encode (.fmulH rd rs1 rs2 rm)) s

/-- FDIV.H (47_zfh_zfhmin.md R755): rounded once, flags accrued. -/
def execFdivH (rd : RegNum) (rs1 : RegNum) (rs2 : RegNum) (rm : BitVec 3) (s : State) : Res :=
  fpBinary .h (fpDiv .h) rd rs1 rs2 rm (encode (.fdivH rd rs1 rs2 rm)) s

/-- FSQRT.H (47_zfh_zfhmin.md R756): square root, rounded once, flags accrued. -/
def execFsqrtH (rd : RegNum) (rs1 : RegNum) (rm : BitVec 3) (s : State) : Res :=
  fpUnary .h (fpSqrt .h) rd rs1 rm (encode (.fsqrtH rd rs1 rm)) s

/-- FSGNJ.H (47_zfh_zfhmin.md R777): the bits of `rs1` with the sign the two signs give. -/
def execFsgnjH (rd : RegNum) (rs1 : RegNum) (rs2 : RegNum) (s : State) : Res :=
  fpSelect .h (fpSgnj .h) rd rs1 rs2 s

/-- FSGNJN.H (47_zfh_zfhmin.md R778): the bits of `rs1` with the sign the two signs give. -/
def execFsgnjnH (rd : RegNum) (rs1 : RegNum) (rs2 : RegNum) (s : State) : Res :=
  fpSelect .h (fpSgnjn .h) rd rs1 rs2 s

/-- FSGNJX.H (47_zfh_zfhmin.md R779): the bits of `rs1` with the sign the two signs give. -/
def execFsgnjxH (rd : RegNum) (rs1 : RegNum) (rs2 : RegNum) (s : State) : Res :=
  fpSelect .h (fpSgnjx .h) rd rs1 rs2 s

/-- FMIN.H (47_zfh_zfhmin.md R757): the smaller operand. -/
def execFminH (rd : RegNum) (rs1 : RegNum) (rs2 : RegNum) (s : State) : Res :=
  fpSelect .h (fpMin .h) rd rs1 rs2 s

/-- FMAX.H (47_zfh_zfhmin.md R758): the larger operand. -/
def execFmaxH (rd : RegNum) (rs1 : RegNum) (rs2 : RegNum) (s : State) : Res :=
  fpSelect .h (fpMax .h) rd rs1 rs2 s

/-- FCVT.W.H (47_zfh_zfhmin.md R763): to an integer type. -/
def execFcvtWH (rd : RegNum) (rs1 : RegNum) (rm : BitVec 3) (s : State) : Res :=
  fpToInt .h .w rd rs1 rm (encode (.fcvtWH rd rs1 rm)) s

/-- FCVT.WU.H (47_zfh_zfhmin.md R764): to an integer type. -/
def execFcvtWuH (rd : RegNum) (rs1 : RegNum) (rm : BitVec 3) (s : State) : Res :=
  fpToInt .h .wu rd rs1 rm (encode (.fcvtWuH rd rs1 rm)) s

/-- FCVT.L.H (47_zfh_zfhmin.md R765): to an integer type. -/
def execFcvtLH (rd : RegNum) (rs1 : RegNum) (rm : BitVec 3) (s : State) : Res :=
  fpToInt .h .l rd rs1 rm (encode (.fcvtLH rd rs1 rm)) s

/-- FCVT.LU.H (47_zfh_zfhmin.md R766): to an integer type. -/
def execFcvtLuH (rd : RegNum) (rs1 : RegNum) (rm : BitVec 3) (s : State) : Res :=
  fpToInt .h .lu rd rs1 rm (encode (.fcvtLuH rd rs1 rm)) s

/-- FCVT.H.W (47_zfh_zfhmin.md R767): from an integer type. -/
def execFcvtHW (rd : RegNum) (rs1 : RegNum) (rm : BitVec 3) (s : State) : Res :=
  fpFromInt .h .w rd rs1 rm (encode (.fcvtHW rd rs1 rm)) s

/-- FCVT.H.WU (47_zfh_zfhmin.md R768): from an integer type. -/
def execFcvtHWu (rd : RegNum) (rs1 : RegNum) (rm : BitVec 3) (s : State) : Res :=
  fpFromInt .h .wu rd rs1 rm (encode (.fcvtHWu rd rs1 rm)) s

/-- FCVT.H.L (47_zfh_zfhmin.md R769): from an integer type. -/
def execFcvtHL (rd : RegNum) (rs1 : RegNum) (rm : BitVec 3) (s : State) : Res :=
  fpFromInt .h .l rd rs1 rm (encode (.fcvtHL rd rs1 rm)) s

/-- FCVT.H.LU (47_zfh_zfhmin.md R770): from an integer type. -/
def execFcvtHLu (rd : RegNum) (rs1 : RegNum) (rm : BitVec 3) (s : State) : Res :=
  fpFromInt .h .lu rd rs1 rm (encode (.fcvtHLu rd rs1 rm)) s

/-- FEQ.H (47_zfh_zfhmin.md R782): 1 or 0 in `x[rd]`. -/
def execFeqH (rd : RegNum) (rs1 : RegNum) (rs2 : RegNum) (s : State) : Res :=
  fpCompare .h (fpEq .h) rd rs1 rs2 s

/-- FLT.H (47_zfh_zfhmin.md R783): 1 or 0 in `x[rd]`. -/
def execFltH (rd : RegNum) (rs1 : RegNum) (rs2 : RegNum) (s : State) : Res :=
  fpCompare .h (fpLt .h) rd rs1 rs2 s

/-- FLE.H (47_zfh_zfhmin.md R784): 1 or 0 in `x[rd]`. -/
def execFleH (rd : RegNum) (rs1 : RegNum) (rs2 : RegNum) (s : State) : Res :=
  fpCompare .h (fpLe .h) rd rs1 rs2 s

/-- FCLASS.H (47_zfh_zfhmin.md R785): the class mask in `x[rd]`. -/
def execFclassH (rd : RegNum) (rs1 : RegNum) (s : State) : Res :=
  fpClassify .h rd rs1 s

/-- FCVT.S.H (47_zfh_zfhmin.md R771): between formats. -/
def execFcvtSH (rd : RegNum) (rs1 : RegNum) (rm : BitVec 3) (s : State) : Res :=
  fpToFp .h .s rd rs1 rm (encode (.fcvtSH rd rs1 rm)) s

/-- FCVT.H.S (47_zfh_zfhmin.md R772): between formats. -/
def execFcvtHS (rd : RegNum) (rs1 : RegNum) (rm : BitVec 3) (s : State) : Res :=
  fpToFp .s .h rd rs1 rm (encode (.fcvtHS rd rs1 rm)) s

/-- FCVT.D.H (47_zfh_zfhmin.md R773): between formats. -/
def execFcvtDH (rd : RegNum) (rs1 : RegNum) (rm : BitVec 3) (s : State) : Res :=
  fpToFp .h .d rd rs1 rm (encode (.fcvtDH rd rs1 rm)) s

/-- FCVT.H.D (47_zfh_zfhmin.md R774): between formats. -/
def execFcvtHD (rd : RegNum) (rs1 : RegNum) (rm : BitVec 3) (s : State) : Res :=
  fpToFp .d .h rd rs1 rm (encode (.fcvtHD rd rs1 rm)) s

/-- FCVT.Q.H (47_zfh_zfhmin.md R775): between formats. -/
def execFcvtQH (rd : RegNum) (rs1 : RegNum) (rm : BitVec 3) (s : State) : Res :=
  fpToFp .h .q rd rs1 rm (encode (.fcvtQH rd rs1 rm)) s

/-- FCVT.H.Q (47_zfh_zfhmin.md R776): between formats. -/
def execFcvtHQ (rd : RegNum) (rs1 : RegNum) (rm : BitVec 3) (s : State) : Res :=
  fpToFp .q .h rd rs1 rm (encode (.fcvtHQ rd rs1 rm)) s

/-- FMV.X.H (47_zfh_zfhmin.md R780): the low bits, sign-extended, to `x[rd]`. -/
def execFmvXH (rd : RegNum) (rs1 : RegNum) (s : State) : Res :=
  moveToX .h rd rs1 s

/-- FMV.H.X (47_zfh_zfhmin.md R781): the low bits of `x[rs1]`, boxed. -/
def execFmvHX (rd : RegNum) (rs1 : RegNum) (s : State) : Res :=
  moveFromX .h rd rs1 s

end Sys2Proof.Machine
end

