-- ==== Sys2Proof/Machine/FloatQ.lean ====
section
/-! DEFINITION. The quad-precision instructions (47_q.md). -/

namespace Sys2Proof.Machine

/-- FLQ (47_q.md R710): load, boxed, bits unmodified. -/
def execFlq (rd : RegNum) (rs1 : RegNum) (imm : BitVec 12) (s : State) : Res :=
  loadF 4 .q rd rs1 (imm12 imm) s

/-- FSQ (47_q.md R711): store, bits unmodified. -/
def execFsq (rs2 : RegNum) (rs1 : RegNum) (imm : BitVec 12) (s : State) : Res :=
  storeF 4 .q rs2 rs1 (imm12 imm) s

/-- FMADD.Q (47_q.md R719): fused multiply-add, rounded once. -/
def execFmaddQ (rd : RegNum) (rs1 : RegNum) (rs2 : RegNum) (rs3 : RegNum) (rm : BitVec 3) (s : State) : Res :=
  fpTernary .q (fpMadd .q) rd rs1 rs2 rs3 rm (encode (.fmaddQ rd rs1 rs2 rs3 rm)) s

/-- FMSUB.Q (47_q.md R720): fused multiply-add, rounded once. -/
def execFmsubQ (rd : RegNum) (rs1 : RegNum) (rs2 : RegNum) (rs3 : RegNum) (rm : BitVec 3) (s : State) : Res :=
  fpTernary .q (fpMsub .q) rd rs1 rs2 rs3 rm (encode (.fmsubQ rd rs1 rs2 rs3 rm)) s

/-- FNMSUB.Q (47_q.md R721): fused multiply-add, rounded once. -/
def execFnmsubQ (rd : RegNum) (rs1 : RegNum) (rs2 : RegNum) (rs3 : RegNum) (rm : BitVec 3) (s : State) : Res :=
  fpTernary .q (fpNmsub .q) rd rs1 rs2 rs3 rm (encode (.fnmsubQ rd rs1 rs2 rs3 rm)) s

/-- FNMADD.Q (47_q.md R722): fused multiply-add, rounded once. -/
def execFnmaddQ (rd : RegNum) (rs1 : RegNum) (rs2 : RegNum) (rs3 : RegNum) (rm : BitVec 3) (s : State) : Res :=
  fpTernary .q (fpNmadd .q) rd rs1 rs2 rs3 rm (encode (.fnmaddQ rd rs1 rs2 rs3 rm)) s

/-- FADD.Q (47_q.md R712): rounded once, flags accrued. -/
def execFaddQ (rd : RegNum) (rs1 : RegNum) (rs2 : RegNum) (rm : BitVec 3) (s : State) : Res :=
  fpBinary .q (fpAdd .q) rd rs1 rs2 rm (encode (.faddQ rd rs1 rs2 rm)) s

/-- FSUB.Q (47_q.md R713): rounded once, flags accrued. -/
def execFsubQ (rd : RegNum) (rs1 : RegNum) (rs2 : RegNum) (rm : BitVec 3) (s : State) : Res :=
  fpBinary .q (fpSub .q) rd rs1 rs2 rm (encode (.fsubQ rd rs1 rs2 rm)) s

/-- FMUL.Q (47_q.md R714): rounded once, flags accrued. -/
def execFmulQ (rd : RegNum) (rs1 : RegNum) (rs2 : RegNum) (rm : BitVec 3) (s : State) : Res :=
  fpBinary .q (fpMul .q) rd rs1 rs2 rm (encode (.fmulQ rd rs1 rs2 rm)) s

/-- FDIV.Q (47_q.md R715): rounded once, flags accrued. -/
def execFdivQ (rd : RegNum) (rs1 : RegNum) (rs2 : RegNum) (rm : BitVec 3) (s : State) : Res :=
  fpBinary .q (fpDiv .q) rd rs1 rs2 rm (encode (.fdivQ rd rs1 rs2 rm)) s

/-- FSQRT.Q (47_q.md R716): square root, rounded once, flags accrued. -/
def execFsqrtQ (rd : RegNum) (rs1 : RegNum) (rm : BitVec 3) (s : State) : Res :=
  fpUnary .q (fpSqrt .q) rd rs1 rm (encode (.fsqrtQ rd rs1 rm)) s

/-- FSGNJ.Q (47_q.md R735): the bits of `rs1` with the sign the two signs give. -/
def execFsgnjQ (rd : RegNum) (rs1 : RegNum) (rs2 : RegNum) (s : State) : Res :=
  fpSelect .q (fpSgnj .q) rd rs1 rs2 s

/-- FSGNJN.Q (47_q.md R736): the bits of `rs1` with the sign the two signs give. -/
def execFsgnjnQ (rd : RegNum) (rs1 : RegNum) (rs2 : RegNum) (s : State) : Res :=
  fpSelect .q (fpSgnjn .q) rd rs1 rs2 s

/-- FSGNJX.Q (47_q.md R737): the bits of `rs1` with the sign the two signs give. -/
def execFsgnjxQ (rd : RegNum) (rs1 : RegNum) (rs2 : RegNum) (s : State) : Res :=
  fpSelect .q (fpSgnjx .q) rd rs1 rs2 s

/-- FMIN.Q (47_q.md R717): the smaller operand. -/
def execFminQ (rd : RegNum) (rs1 : RegNum) (rs2 : RegNum) (s : State) : Res :=
  fpSelect .q (fpMin .q) rd rs1 rs2 s

/-- FMAX.Q (47_q.md R718): the larger operand. -/
def execFmaxQ (rd : RegNum) (rs1 : RegNum) (rs2 : RegNum) (s : State) : Res :=
  fpSelect .q (fpMax .q) rd rs1 rs2 s

/-- FCVT.W.Q (47_q.md R723): to an integer type. -/
def execFcvtWQ (rd : RegNum) (rs1 : RegNum) (rm : BitVec 3) (s : State) : Res :=
  fpToInt .q .w rd rs1 rm (encode (.fcvtWQ rd rs1 rm)) s

/-- FCVT.WU.Q (47_q.md R724): to an integer type. -/
def execFcvtWuQ (rd : RegNum) (rs1 : RegNum) (rm : BitVec 3) (s : State) : Res :=
  fpToInt .q .wu rd rs1 rm (encode (.fcvtWuQ rd rs1 rm)) s

/-- FCVT.L.Q (47_q.md R725): to an integer type. -/
def execFcvtLQ (rd : RegNum) (rs1 : RegNum) (rm : BitVec 3) (s : State) : Res :=
  fpToInt .q .l rd rs1 rm (encode (.fcvtLQ rd rs1 rm)) s

/-- FCVT.LU.Q (47_q.md R726): to an integer type. -/
def execFcvtLuQ (rd : RegNum) (rs1 : RegNum) (rm : BitVec 3) (s : State) : Res :=
  fpToInt .q .lu rd rs1 rm (encode (.fcvtLuQ rd rs1 rm)) s

/-- FCVT.Q.W (47_q.md R727): from an integer type. -/
def execFcvtQW (rd : RegNum) (rs1 : RegNum) (rm : BitVec 3) (s : State) : Res :=
  fpFromInt .q .w rd rs1 rm (encode (.fcvtQW rd rs1 rm)) s

/-- FCVT.Q.WU (47_q.md R728): from an integer type. -/
def execFcvtQWu (rd : RegNum) (rs1 : RegNum) (rm : BitVec 3) (s : State) : Res :=
  fpFromInt .q .wu rd rs1 rm (encode (.fcvtQWu rd rs1 rm)) s

/-- FCVT.Q.L (47_q.md R729): from an integer type. -/
def execFcvtQL (rd : RegNum) (rs1 : RegNum) (rm : BitVec 3) (s : State) : Res :=
  fpFromInt .q .l rd rs1 rm (encode (.fcvtQL rd rs1 rm)) s

/-- FCVT.Q.LU (47_q.md R730): from an integer type. -/
def execFcvtQLu (rd : RegNum) (rs1 : RegNum) (rm : BitVec 3) (s : State) : Res :=
  fpFromInt .q .lu rd rs1 rm (encode (.fcvtQLu rd rs1 rm)) s

/-- FEQ.Q (47_q.md R738): 1 or 0 in `x[rd]`. -/
def execFeqQ (rd : RegNum) (rs1 : RegNum) (rs2 : RegNum) (s : State) : Res :=
  fpCompare .q (fpEq .q) rd rs1 rs2 s

/-- FLT.Q (47_q.md R739): 1 or 0 in `x[rd]`. -/
def execFltQ (rd : RegNum) (rs1 : RegNum) (rs2 : RegNum) (s : State) : Res :=
  fpCompare .q (fpLt .q) rd rs1 rs2 s

/-- FLE.Q (47_q.md R740): 1 or 0 in `x[rd]`. -/
def execFleQ (rd : RegNum) (rs1 : RegNum) (rs2 : RegNum) (s : State) : Res :=
  fpCompare .q (fpLe .q) rd rs1 rs2 s

/-- FCLASS.Q (47_q.md R741): the class mask in `x[rd]`. -/
def execFclassQ (rd : RegNum) (rs1 : RegNum) (s : State) : Res :=
  fpClassify .q rd rs1 s

/-- FCVT.S.Q (47_q.md R731): between formats. -/
def execFcvtSQ (rd : RegNum) (rs1 : RegNum) (rm : BitVec 3) (s : State) : Res :=
  fpToFp .q .s rd rs1 rm (encode (.fcvtSQ rd rs1 rm)) s

/-- FCVT.Q.S (47_q.md R732): between formats. -/
def execFcvtQS (rd : RegNum) (rs1 : RegNum) (rm : BitVec 3) (s : State) : Res :=
  fpToFp .s .q rd rs1 rm (encode (.fcvtQS rd rs1 rm)) s

/-- FCVT.D.Q (47_q.md R733): between formats. -/
def execFcvtDQ (rd : RegNum) (rs1 : RegNum) (rm : BitVec 3) (s : State) : Res :=
  fpToFp .q .d rd rs1 rm (encode (.fcvtDQ rd rs1 rm)) s

/-- FCVT.Q.D (47_q.md R734): between formats. -/
def execFcvtQD (rd : RegNum) (rs1 : RegNum) (rm : BitVec 3) (s : State) : Res :=
  fpToFp .d .q rd rs1 rm (encode (.fcvtQD rd rs1 rm)) s

end Sys2Proof.Machine
end

