-- ==== Sys2Proof/Machine/FloatS.lean ====
section
/-! DEFINITION. The single-precision instructions (46_f.md). An instruction with an `rm` field hands its own encoding to the
shared shape, which an illegal-instruction exception reports. -/

namespace Sys2Proof.Machine

/-- FLW (46_f.md R581): load, boxed, bits unmodified. -/
def execFlw (rd : RegNum) (rs1 : RegNum) (imm : BitVec 12) (s : State) : Res :=
  loadF 4 .s rd rs1 (imm12 imm) s

/-- FSW (46_f.md R582): store, bits unmodified. -/
def execFsw (rs2 : RegNum) (rs1 : RegNum) (imm : BitVec 12) (s : State) : Res :=
  storeF 4 .s rs2 rs1 (imm12 imm) s

/-- FMADD.S (46_f.md R593): fused multiply-add, rounded once. -/
def execFmaddS (rd : RegNum) (rs1 : RegNum) (rs2 : RegNum) (rs3 : RegNum) (rm : BitVec 3) (s : State) : Res :=
  fpTernary .s (fpMadd .s) rd rs1 rs2 rs3 rm (encode (.fmaddS rd rs1 rs2 rs3 rm)) s

/-- FMSUB.S (46_f.md R594): fused multiply-add, rounded once. -/
def execFmsubS (rd : RegNum) (rs1 : RegNum) (rs2 : RegNum) (rs3 : RegNum) (rm : BitVec 3) (s : State) : Res :=
  fpTernary .s (fpMsub .s) rd rs1 rs2 rs3 rm (encode (.fmsubS rd rs1 rs2 rs3 rm)) s

/-- FNMSUB.S (46_f.md R595): fused multiply-add, rounded once. -/
def execFnmsubS (rd : RegNum) (rs1 : RegNum) (rs2 : RegNum) (rs3 : RegNum) (rm : BitVec 3) (s : State) : Res :=
  fpTernary .s (fpNmsub .s) rd rs1 rs2 rs3 rm (encode (.fnmsubS rd rs1 rs2 rs3 rm)) s

/-- FNMADD.S (46_f.md R596): fused multiply-add, rounded once. -/
def execFnmaddS (rd : RegNum) (rs1 : RegNum) (rs2 : RegNum) (rs3 : RegNum) (rm : BitVec 3) (s : State) : Res :=
  fpTernary .s (fpNmadd .s) rd rs1 rs2 rs3 rm (encode (.fnmaddS rd rs1 rs2 rs3 rm)) s

/-- FADD.S (46_f.md R585): rounded once, flags accrued. -/
def execFaddS (rd : RegNum) (rs1 : RegNum) (rs2 : RegNum) (rm : BitVec 3) (s : State) : Res :=
  fpBinary .s (fpAdd .s) rd rs1 rs2 rm (encode (.faddS rd rs1 rs2 rm)) s

/-- FSUB.S (46_f.md R586): rounded once, flags accrued. -/
def execFsubS (rd : RegNum) (rs1 : RegNum) (rs2 : RegNum) (rm : BitVec 3) (s : State) : Res :=
  fpBinary .s (fpSub .s) rd rs1 rs2 rm (encode (.fsubS rd rs1 rs2 rm)) s

/-- FMUL.S (46_f.md R587): rounded once, flags accrued. -/
def execFmulS (rd : RegNum) (rs1 : RegNum) (rs2 : RegNum) (rm : BitVec 3) (s : State) : Res :=
  fpBinary .s (fpMul .s) rd rs1 rs2 rm (encode (.fmulS rd rs1 rs2 rm)) s

/-- FDIV.S (46_f.md R588): rounded once, flags accrued. -/
def execFdivS (rd : RegNum) (rs1 : RegNum) (rs2 : RegNum) (rm : BitVec 3) (s : State) : Res :=
  fpBinary .s (fpDiv .s) rd rs1 rs2 rm (encode (.fdivS rd rs1 rs2 rm)) s

/-- FSQRT.S (46_f.md R589): square root, rounded once, flags accrued. -/
def execFsqrtS (rd : RegNum) (rs1 : RegNum) (rm : BitVec 3) (s : State) : Res :=
  fpUnary .s (fpSqrt .s) rd rs1 rm (encode (.fsqrtS rd rs1 rm)) s

/-- FSGNJ.S (46_f.md R610): the bits of `rs1` with the sign the two signs give. -/
def execFsgnjS (rd : RegNum) (rs1 : RegNum) (rs2 : RegNum) (s : State) : Res :=
  fpSelect .s (fpSgnj .s) rd rs1 rs2 s

/-- FSGNJN.S (46_f.md R611): the bits of `rs1` with the sign the two signs give. -/
def execFsgnjnS (rd : RegNum) (rs1 : RegNum) (rs2 : RegNum) (s : State) : Res :=
  fpSelect .s (fpSgnjn .s) rd rs1 rs2 s

/-- FSGNJX.S (46_f.md R612): the bits of `rs1` with the sign the two signs give. -/
def execFsgnjxS (rd : RegNum) (rs1 : RegNum) (rs2 : RegNum) (s : State) : Res :=
  fpSelect .s (fpSgnjx .s) rd rs1 rs2 s

/-- FMIN.S (46_f.md R590): the smaller operand. -/
def execFminS (rd : RegNum) (rs1 : RegNum) (rs2 : RegNum) (s : State) : Res :=
  fpSelect .s (fpMin .s) rd rs1 rs2 s

/-- FMAX.S (46_f.md R591): the larger operand. -/
def execFmaxS (rd : RegNum) (rs1 : RegNum) (rs2 : RegNum) (s : State) : Res :=
  fpSelect .s (fpMax .s) rd rs1 rs2 s

/-- FCVT.W.S (46_f.md R601): to an integer type. -/
def execFcvtWS (rd : RegNum) (rs1 : RegNum) (rm : BitVec 3) (s : State) : Res :=
  fpToInt .s .w rd rs1 rm (encode (.fcvtWS rd rs1 rm)) s

/-- FCVT.WU.S (46_f.md R602): to an integer type. -/
def execFcvtWuS (rd : RegNum) (rs1 : RegNum) (rm : BitVec 3) (s : State) : Res :=
  fpToInt .s .wu rd rs1 rm (encode (.fcvtWuS rd rs1 rm)) s

/-- FCVT.L.S (46_f.md R603): to an integer type. -/
def execFcvtLS (rd : RegNum) (rs1 : RegNum) (rm : BitVec 3) (s : State) : Res :=
  fpToInt .s .l rd rs1 rm (encode (.fcvtLS rd rs1 rm)) s

/-- FCVT.LU.S (46_f.md R604): to an integer type. -/
def execFcvtLuS (rd : RegNum) (rs1 : RegNum) (rm : BitVec 3) (s : State) : Res :=
  fpToInt .s .lu rd rs1 rm (encode (.fcvtLuS rd rs1 rm)) s

/-- FCVT.S.W (46_f.md R605): from an integer type. -/
def execFcvtSW (rd : RegNum) (rs1 : RegNum) (rm : BitVec 3) (s : State) : Res :=
  fpFromInt .s .w rd rs1 rm (encode (.fcvtSW rd rs1 rm)) s

/-- FCVT.S.WU (46_f.md R606): from an integer type. -/
def execFcvtSWu (rd : RegNum) (rs1 : RegNum) (rm : BitVec 3) (s : State) : Res :=
  fpFromInt .s .wu rd rs1 rm (encode (.fcvtSWu rd rs1 rm)) s

/-- FCVT.S.L (46_f.md R607): from an integer type. -/
def execFcvtSL (rd : RegNum) (rs1 : RegNum) (rm : BitVec 3) (s : State) : Res :=
  fpFromInt .s .l rd rs1 rm (encode (.fcvtSL rd rs1 rm)) s

/-- FCVT.S.LU (46_f.md R608): from an integer type. -/
def execFcvtSLu (rd : RegNum) (rs1 : RegNum) (rm : BitVec 3) (s : State) : Res :=
  fpFromInt .s .lu rd rs1 rm (encode (.fcvtSLu rd rs1 rm)) s

/-- FEQ.S (46_f.md R615): 1 or 0 in `x[rd]`. -/
def execFeqS (rd : RegNum) (rs1 : RegNum) (rs2 : RegNum) (s : State) : Res :=
  fpCompare .s (fpEq .s) rd rs1 rs2 s

/-- FLT.S (46_f.md R616): 1 or 0 in `x[rd]`. -/
def execFltS (rd : RegNum) (rs1 : RegNum) (rs2 : RegNum) (s : State) : Res :=
  fpCompare .s (fpLt .s) rd rs1 rs2 s

/-- FLE.S (46_f.md R617): 1 or 0 in `x[rd]`. -/
def execFleS (rd : RegNum) (rs1 : RegNum) (rs2 : RegNum) (s : State) : Res :=
  fpCompare .s (fpLe .s) rd rs1 rs2 s

/-- FCLASS.S (46_f.md R618): the class mask in `x[rd]`. -/
def execFclassS (rd : RegNum) (rs1 : RegNum) (s : State) : Res :=
  fpClassify .s rd rs1 s

/-- FMV.X.W (46_f.md R613): the low bits, sign-extended, to `x[rd]`. -/
def execFmvXW (rd : RegNum) (rs1 : RegNum) (s : State) : Res :=
  moveToX .s rd rs1 s

/-- FMV.W.X (46_f.md R614): the low bits of `x[rs1]`, boxed. -/
def execFmvWX (rd : RegNum) (rs1 : RegNum) (s : State) : Res :=
  moveFromX .s rd rs1 s

end Sys2Proof.Machine
end

