-- ==== Sys2Proof/Machine/Integer.lean ====
section
/-! DEFINITION. The integer computational instructions (40_rv32i_base.md R261 to R284;
41_rv64i_rv32e_rv128i.md R341 to R354). -/

namespace Sys2Proof.Machine

/-- LUI (40_rv32i_base.md R273): `x[rd] <- imm`. -/
def execLui (rd : RegNum) (imm : BitVec 20) (s : State) : Res :=
  loadImm 4 rd (immU imm) s

/-- AUIPC (40_rv32i_base.md R274): `x[rd] <- pc + imm`. -/
def execAuipc (rd : RegNum) (imm : BitVec 20) (s : State) : Res :=
  pcRelative 4 rd (immU imm) s

/-- ADDI (40_rv32i_base.md R264): `x[rd] <- op(x[rs1], imm)`. -/
def execAddi (rd : RegNum) (rs1 : RegNum) (imm : BitVec 12) (s : State) : Res :=
  regImm 4 aluAdd rd rs1 (imm12 imm) s

/-- SLTI (40_rv32i_base.md R265): `x[rd] <- op(x[rs1], imm)`. -/
def execSlti (rd : RegNum) (rs1 : RegNum) (imm : BitVec 12) (s : State) : Res :=
  regImm 4 aluSlt rd rs1 (imm12 imm) s

/-- SLTIU (40_rv32i_base.md R266): `x[rd] <- op(x[rs1], imm)`. -/
def execSltiu (rd : RegNum) (rs1 : RegNum) (imm : BitVec 12) (s : State) : Res :=
  regImm 4 aluSltu rd rs1 (imm12 imm) s

/-- XORI (40_rv32i_base.md R269): `x[rd] <- op(x[rs1], imm)`. -/
def execXori (rd : RegNum) (rs1 : RegNum) (imm : BitVec 12) (s : State) : Res :=
  regImm 4 aluXor rd rs1 (imm12 imm) s

/-- ORI (40_rv32i_base.md R268): `x[rd] <- op(x[rs1], imm)`. -/
def execOri (rd : RegNum) (rs1 : RegNum) (imm : BitVec 12) (s : State) : Res :=
  regImm 4 aluOr rd rs1 (imm12 imm) s

/-- ANDI (40_rv32i_base.md R267): `x[rd] <- op(x[rs1], imm)`. -/
def execAndi (rd : RegNum) (rs1 : RegNum) (imm : BitVec 12) (s : State) : Res :=
  regImm 4 aluAnd rd rs1 (imm12 imm) s

/-- SLLI (40_rv32i_base.md R270): `x[rd] <- x[rs1] shifted by shamt`. -/
def execSlli (rd : RegNum) (rs1 : RegNum) (shamt : BitVec 6) (s : State) : Res :=
  regImm 4 aluSll rd rs1 (shamt.setWidth 64) s

/-- SRLI (40_rv32i_base.md R271): `x[rd] <- x[rs1] shifted by shamt`. -/
def execSrli (rd : RegNum) (rs1 : RegNum) (shamt : BitVec 6) (s : State) : Res :=
  regImm 4 aluSrl rd rs1 (shamt.setWidth 64) s

/-- SRAI (40_rv32i_base.md R272): `x[rd] <- x[rs1] shifted by shamt`. -/
def execSrai (rd : RegNum) (rs1 : RegNum) (shamt : BitVec 6) (s : State) : Res :=
  regImm 4 aluSra rd rs1 (shamt.setWidth 64) s

/-- ADD (40_rv32i_base.md R275): `x[rd] <- op(x[rs1], x[rs2])`. -/
def execAdd (rd : RegNum) (rs1 : RegNum) (rs2 : RegNum) (s : State) : Res :=
  regReg 4 aluAdd rd rs1 rs2 s

/-- SUB (40_rv32i_base.md R276): `x[rd] <- op(x[rs1], x[rs2])`. -/
def execSub (rd : RegNum) (rs1 : RegNum) (rs2 : RegNum) (s : State) : Res :=
  regReg 4 aluSub rd rs1 rs2 s

/-- SLL (40_rv32i_base.md R277): `x[rd] <- op(x[rs1], x[rs2])`. -/
def execSll (rd : RegNum) (rs1 : RegNum) (rs2 : RegNum) (s : State) : Res :=
  regReg 4 aluSll rd rs1 rs2 s

/-- SLT (40_rv32i_base.md R278): `x[rd] <- op(x[rs1], x[rs2])`. -/
def execSlt (rd : RegNum) (rs1 : RegNum) (rs2 : RegNum) (s : State) : Res :=
  regReg 4 aluSlt rd rs1 rs2 s

/-- SLTU (40_rv32i_base.md R279): `x[rd] <- op(x[rs1], x[rs2])`. -/
def execSltu (rd : RegNum) (rs1 : RegNum) (rs2 : RegNum) (s : State) : Res :=
  regReg 4 aluSltu rd rs1 rs2 s

/-- XOR (40_rv32i_base.md R280): `x[rd] <- op(x[rs1], x[rs2])`. -/
def execXor (rd : RegNum) (rs1 : RegNum) (rs2 : RegNum) (s : State) : Res :=
  regReg 4 aluXor rd rs1 rs2 s

/-- SRL (40_rv32i_base.md R281): `x[rd] <- op(x[rs1], x[rs2])`. -/
def execSrl (rd : RegNum) (rs1 : RegNum) (rs2 : RegNum) (s : State) : Res :=
  regReg 4 aluSrl rd rs1 rs2 s

/-- SRA (40_rv32i_base.md R282): `x[rd] <- op(x[rs1], x[rs2])`. -/
def execSra (rd : RegNum) (rs1 : RegNum) (rs2 : RegNum) (s : State) : Res :=
  regReg 4 aluSra rd rs1 rs2 s

/-- OR (40_rv32i_base.md R283): `x[rd] <- op(x[rs1], x[rs2])`. -/
def execOr (rd : RegNum) (rs1 : RegNum) (rs2 : RegNum) (s : State) : Res :=
  regReg 4 aluOr rd rs1 rs2 s

/-- AND (40_rv32i_base.md R284): `x[rd] <- op(x[rs1], x[rs2])`. -/
def execAnd (rd : RegNum) (rs1 : RegNum) (rs2 : RegNum) (s : State) : Res :=
  regReg 4 aluAnd rd rs1 rs2 s

/-- ADDIW (41_rv64i_rv32e_rv128i.md R342): `x[rd]` gets the low word of the sum, sign-extended. -/
def execAddiw (rd : RegNum) (rs1 : RegNum) (imm : BitVec 12) (s : State) : Res :=
  regImmW 4 aluAdd rd rs1 (imm12 imm) s

/-- SLLIW (41_rv64i_rv32e_rv128i.md R344): the low word shifted by shamt, sign-extended. -/
def execSlliw (rd : RegNum) (rs1 : RegNum) (shamt : BitVec 5) (s : State) : Res :=
  regImmW 4 aluSll rd rs1 (shamt.setWidth 64) s

/-- SRLIW (41_rv64i_rv32e_rv128i.md R345): the low word shifted by shamt, sign-extended. -/
def execSrliw (rd : RegNum) (rs1 : RegNum) (shamt : BitVec 5) (s : State) : Res :=
  regImmW 4 aluSrl rd rs1 (shamt.setWidth 64) s

/-- SRAIW (41_rv64i_rv32e_rv128i.md R346): the low word shifted by shamt, sign-extended. -/
def execSraiw (rd : RegNum) (rs1 : RegNum) (shamt : BitVec 5) (s : State) : Res :=
  regImmW 4 aluSra rd rs1 (shamt.setWidth 64) s

/-- ADDW (41_rv64i_rv32e_rv128i.md R350): the operation on the low words, sign-extended. -/
def execAddw (rd : RegNum) (rs1 : RegNum) (rs2 : RegNum) (s : State) : Res :=
  regRegW 4 aluAdd rd rs1 rs2 s

/-- SUBW (41_rv64i_rv32e_rv128i.md R351): the operation on the low words, sign-extended. -/
def execSubw (rd : RegNum) (rs1 : RegNum) (rs2 : RegNum) (s : State) : Res :=
  regRegW 4 aluSub rd rs1 rs2 s

/-- SLLW (41_rv64i_rv32e_rv128i.md R352): the operation on the low words, sign-extended. -/
def execSllw (rd : RegNum) (rs1 : RegNum) (rs2 : RegNum) (s : State) : Res :=
  regRegW 4 aluSll rd rs1 rs2 s

/-- SRLW (41_rv64i_rv32e_rv128i.md R353): the operation on the low words, sign-extended. -/
def execSrlw (rd : RegNum) (rs1 : RegNum) (rs2 : RegNum) (s : State) : Res :=
  regRegW 4 aluSrl rd rs1 rs2 s

/-- SRAW (41_rv64i_rv32e_rv128i.md R354): the operation on the low words, sign-extended. -/
def execSraw (rd : RegNum) (rs1 : RegNum) (rs2 : RegNum) (s : State) : Res :=
  regRegW 4 aluSra rd rs1 rs2 s

end Sys2Proof.Machine
end

