-- ==== Sys2Proof/Machine/LoadStore.lean ====
section
/-! DEFINITION. The loads and stores (40_rv32i_base.md R304 to R313; 41_rv64i_rv32e_rv128i.md R356 to R358). -/

namespace Sys2Proof.Machine

/-- LB (40_rv32i_base.md R305): load 1 byte, signed. -/
def execLb (rd : RegNum) (rs1 : RegNum) (imm : BitVec 12) (s : State) : Res :=
  loadX 4 1 .signed rd rs1 (imm12 imm) s

/-- LH (40_rv32i_base.md R306): load 2 bytes, signed. -/
def execLh (rd : RegNum) (rs1 : RegNum) (imm : BitVec 12) (s : State) : Res :=
  loadX 4 2 .signed rd rs1 (imm12 imm) s

/-- LW (40_rv32i_base.md R307): load 4 bytes, signed. -/
def execLw (rd : RegNum) (rs1 : RegNum) (imm : BitVec 12) (s : State) : Res :=
  loadX 4 4 .signed rd rs1 (imm12 imm) s

/-- LBU (40_rv32i_base.md R308): load 1 byte, unsigned. -/
def execLbu (rd : RegNum) (rs1 : RegNum) (imm : BitVec 12) (s : State) : Res :=
  loadX 4 1 .unsigned rd rs1 (imm12 imm) s

/-- LHU (40_rv32i_base.md R309): load 2 bytes, unsigned. -/
def execLhu (rd : RegNum) (rs1 : RegNum) (imm : BitVec 12) (s : State) : Res :=
  loadX 4 2 .unsigned rd rs1 (imm12 imm) s

/-- SB (40_rv32i_base.md R311): store 1 byte. -/
def execSb (rs2 : RegNum) (rs1 : RegNum) (imm : BitVec 12) (s : State) : Res :=
  storeX 4 1 rs2 rs1 (imm12 imm) s

/-- SH (40_rv32i_base.md R312): store 2 bytes. -/
def execSh (rs2 : RegNum) (rs1 : RegNum) (imm : BitVec 12) (s : State) : Res :=
  storeX 4 2 rs2 rs1 (imm12 imm) s

/-- SW (40_rv32i_base.md R313): store 4 bytes. -/
def execSw (rs2 : RegNum) (rs1 : RegNum) (imm : BitVec 12) (s : State) : Res :=
  storeX 4 4 rs2 rs1 (imm12 imm) s

/-- LWU (41_rv64i_rv32e_rv128i.md R357): load 4 bytes, unsigned. -/
def execLwu (rd : RegNum) (rs1 : RegNum) (imm : BitVec 12) (s : State) : Res :=
  loadX 4 4 .unsigned rd rs1 (imm12 imm) s

/-- LD (41_rv64i_rv32e_rv128i.md R356): load 8 bytes, signed. -/
def execLd (rd : RegNum) (rs1 : RegNum) (imm : BitVec 12) (s : State) : Res :=
  loadX 4 8 .signed rd rs1 (imm12 imm) s

/-- SD (41_rv64i_rv32e_rv128i.md R358): store 8 bytes. -/
def execSd (rs2 : RegNum) (rs1 : RegNum) (imm : BitVec 12) (s : State) : Res :=
  storeX 4 8 rs2 rs1 (imm12 imm) s

end Sys2Proof.Machine
end

