-- ==== Sys2Proof/Machine/MulDiv.lean ====
section
/-! DEFINITION. Multiplication and division (43_m_zmmul.md R430 to R450). -/

namespace Sys2Proof.Machine

/-- The low half of the product (R431). -/
def aluMul : AluOp := fun _ a b => a * b

/-- Bits `2w-1:w` of a product taken as a `2w`-bit two's-complement value. -/
def highHalf (w : Nat) (p : Int) : BitVec w := BitVec.ofInt w (p / 2 ^ w)

/-- The high half of the signed product (R432). -/
def aluMulh : AluOp := fun w a b => highHalf w (a.toInt * b.toInt)

/-- The high half of the signed by unsigned product (R433). -/
def aluMulhsu : AluOp := fun w a b => highHalf w (a.toInt * (b.toNat : Int))

/-- The high half of the unsigned product (R434). -/
def aluMulhu : AluOp := fun w a b => highHalf w ((a.toNat : Int) * (b.toNat : Int))

/-- Signed division rounding towards zero; all ones on a zero divisor; the dividend on overflow (R440, R445). -/
def aluDiv : AluOp := fun w a b =>
  if b = 0#w then BitVec.allOnes w else BitVec.ofInt w (Int.tdiv a.toInt b.toInt)

/-- Unsigned division; all ones on a zero divisor (R441, R445). -/
def aluDivu : AluOp := fun w a b =>
  if b = 0#w then BitVec.allOnes w else BitVec.ofNat w (a.toNat / b.toNat)

/-- The remainder of the signed division; the dividend on a zero divisor; 0 on overflow (R442, R445). -/
def aluRem : AluOp := fun w a b =>
  if b = 0#w then a else BitVec.ofInt w (Int.tmod a.toInt b.toInt)

/-- The unsigned remainder; the dividend on a zero divisor (R443, R445). -/
def aluRemu : AluOp := fun w a b =>
  if b = 0#w then a else BitVec.ofNat w (a.toNat % b.toNat)

/-- MUL (43_m_zmmul.md R431): `x[rd] <- op(x[rs1], x[rs2])`. -/
def execMul (rd : RegNum) (rs1 : RegNum) (rs2 : RegNum) (s : State) : Res :=
  regReg 4 aluMul rd rs1 rs2 s

/-- MULH (43_m_zmmul.md R432): `x[rd] <- op(x[rs1], x[rs2])`. -/
def execMulh (rd : RegNum) (rs1 : RegNum) (rs2 : RegNum) (s : State) : Res :=
  regReg 4 aluMulh rd rs1 rs2 s

/-- MULHSU (43_m_zmmul.md R433): `x[rd] <- op(x[rs1], x[rs2])`. -/
def execMulhsu (rd : RegNum) (rs1 : RegNum) (rs2 : RegNum) (s : State) : Res :=
  regReg 4 aluMulhsu rd rs1 rs2 s

/-- MULHU (43_m_zmmul.md R434): `x[rd] <- op(x[rs1], x[rs2])`. -/
def execMulhu (rd : RegNum) (rs1 : RegNum) (rs2 : RegNum) (s : State) : Res :=
  regReg 4 aluMulhu rd rs1 rs2 s

/-- DIV (43_m_zmmul.md R440): `x[rd] <- op(x[rs1], x[rs2])`. -/
def execDiv (rd : RegNum) (rs1 : RegNum) (rs2 : RegNum) (s : State) : Res :=
  regReg 4 aluDiv rd rs1 rs2 s

/-- DIVU (43_m_zmmul.md R441): `x[rd] <- op(x[rs1], x[rs2])`. -/
def execDivu (rd : RegNum) (rs1 : RegNum) (rs2 : RegNum) (s : State) : Res :=
  regReg 4 aluDivu rd rs1 rs2 s

/-- REM (43_m_zmmul.md R442): `x[rd] <- op(x[rs1], x[rs2])`. -/
def execRem (rd : RegNum) (rs1 : RegNum) (rs2 : RegNum) (s : State) : Res :=
  regReg 4 aluRem rd rs1 rs2 s

/-- REMU (43_m_zmmul.md R443): `x[rd] <- op(x[rs1], x[rs2])`. -/
def execRemu (rd : RegNum) (rs1 : RegNum) (rs2 : RegNum) (s : State) : Res :=
  regReg 4 aluRemu rd rs1 rs2 s

/-- MULW (43_m_zmmul.md R435): the operation on the low words, sign-extended. -/
def execMulw (rd : RegNum) (rs1 : RegNum) (rs2 : RegNum) (s : State) : Res :=
  regRegW 4 aluMul rd rs1 rs2 s

/-- DIVW (43_m_zmmul.md R444): the operation on the low words, sign-extended. -/
def execDivw (rd : RegNum) (rs1 : RegNum) (rs2 : RegNum) (s : State) : Res :=
  regRegW 4 aluDiv rd rs1 rs2 s

/-- DIVUW (43_m_zmmul.md R444): the operation on the low words, sign-extended. -/
def execDivuw (rd : RegNum) (rs1 : RegNum) (rs2 : RegNum) (s : State) : Res :=
  regRegW 4 aluDivu rd rs1 rs2 s

/-- REMW (43_m_zmmul.md R444): the operation on the low words, sign-extended. -/
def execRemw (rd : RegNum) (rs1 : RegNum) (rs2 : RegNum) (s : State) : Res :=
  regRegW 4 aluRem rd rs1 rs2 s

/-- REMUW (43_m_zmmul.md R444): the operation on the low words, sign-extended. -/
def execRemuw (rd : RegNum) (rs1 : RegNum) (rs2 : RegNum) (s : State) : Res :=
  regRegW 4 aluRemu rd rs1 rs2 s

end Sys2Proof.Machine
end

