-- ==== Sys2Proof/Machine/Csr.lean ====
section
/-! DEFINITION. The control and status registers of this volume (10_state.md R51), the access check
(45_zicsr_counters.md R535) and the shared shape of the six CSR instructions (R524 to R530). -/

namespace Sys2Proof.Machine

/-- The CSRs of 10_state.md R51; a counter is named by its number 0 to 31 (0 `cycle`, 1 `time`, 2
`instret`, n `hpmcounter<n>`) and by which part a read returns. -/
inductive CsrName where
  | fflags
  | frm
  | fcsr
  /-- `0xC00 + n`: bits XLEN-1:0 of counter `n` -/
  | counter (n : BitVec 5)
  /-- `0xC80 + n`: bits 63:32 of counter `n`, XLEN = 32 only -/
  | counterHigh (n : BitVec 5)
deriving DecidableEq, Repr

/-- The CSR at an address of the map; none for every other address (10_state.md R51). -/
def csrAt (a : BitVec 12) : Option CsrName :=
  if a = 0x001 then some .fflags
  else if a = 0x002 then some .frm
  else if a = 0x003 then some .fcsr
  else if a.extractLsb' 5 7 = 0b1100000 then some (.counter (a.extractLsb' 0 5))
  else if a.extractLsb' 5 7 = 0b1100100 then some (.counterHigh (a.extractLsb' 0 5))
  else none

/-- The kind of a counter: `cycle`, `time` and `instret` need Zicntr and count; the others need Zihpm and
follow `HPM[n]` (10_state.md R51, R64). None when the counter is not there. -/
def counterKind (c : Cfg) (n : BitVec 5) : Option HpmKind :=
  if h : n.toNat < 3 then (if c.ext.zicntr then some .counting else none)
  else if c.ext.zihpm then some (c.hpm[n.toNat - 3]'(by have := n.isLt; omega)) else none

/-- Whether a counter can be read: there, implemented, and access not prohibited (45_zicsr_counters.md
R535 (a), (d), (e)). -/
def counterReadable (c : Cfg) (n : BitVec 5) : Bool :=
  c.counterAccess &&
    match counterKind c n with
    | none => false
    | some .unimplemented => false
    | some (.constant _) => true
    | some .counting => true

/-- Whether an access is permitted; `write` says whether the instruction writes (45_zicsr_counters.md R530,
R535): the floating-point CSRs with F or Zfinx, the counters read-only. -/
def csrPermitted (c : Cfg) (r : CsrName) (write : Bool) : Bool :=
  match r with
  | .fflags => c.ext.f || c.ext.zfinx
  | .frm => c.ext.f || c.ext.zfinx
  | .fcsr => c.ext.f || c.ext.zfinx
  | .counter n => !write && counterReadable c n
  | .counterHigh n => !write && decide (c.xlen = .rv32) && counterReadable c n

/-- The 64-bit value of a counter (10_state.md R61 to R64). -/
def counterValue (s : State) (n : BitVec 5) : BitVec 64 :=
  if h : n.toNat < 3 then
    (if n = 0 then s.cycle else if n = 1 then s.time else s.instret)
  else
    match s.cfg.hpm[n.toNat - 3]'(by have := n.isLt; omega) with
    | .constant v => v
    | .counting => s.hpm[n.toNat - 3]'(by have := n.isLt; omega)
    | .unimplemented => 0

/-- `CSRread`: the value before this instruction, zero-extended to XLEN bits; for a counter its low XLEN
bits or its bits 63:32 (10_state.md R52 to R54, R65; 45_zicsr_counters.md R522, R532). -/
def csrRead (r : CsrName) (s : State) : Word :=
  match r with
  | .fflags => s.fflags.setWidth 64
  | .frm => s.frm.setWidth 64
  | .fcsr => fcsrValue s
  | .counter n => truncX s.cfg.xlen (counterValue s n)
  | .counterHigh n => (counterValue s n).extractLsb' 32 32 |>.setWidth 64

/-- `CSRwrite`: only the CSR's own writable bits take a value (45_zicsr_counters.md R522). -/
def csrWrite (r : CsrName) (v : Word) (s : State) : State :=
  match r with
  | .fflags => { s with fflags := v.extractLsb' 0 5 }
  | .frm => { s with frm := v.extractLsb' 0 3 }
  | .fcsr => setFcsr v s
  | .counter _ => s
  | .counterHigh _ => s

/-- A CSR instruction: the check of R535 first; then `update` maps the old value to the value written,
none for a form that does not write (R530); the old value goes to `rd`. The CSRs of this volume have
no side effect on reads (R531), so the read that CSRRW with `rd = x0` omits shows nowhere. -/
def csrAccess (csr : BitVec 12) (rd : RegNum) (update : Option (Word → Word)) (bits : InstrWord)
    (s : State) : Res :=
  match csrAt csr with
  | none => illegal bits s
  | some r =>
    if csrPermitted s.cfg r update.isSome then
      let old := csrRead r s
      let s1 := match update with
        | none => s
        | some u => csrWrite r (u old) s
      retire 4 (writeX rd old s1)
    else illegal bits s

/-- The set-bits update of CSRRS and CSRRSI (R525, R528). -/
def csrSet (m : Word) : Word → Word := fun t => t ||| m

/-- The clear-bits update of CSRRC and CSRRCI (R526, R529). -/
def csrClear (m : Word) : Word → Word := fun t => t &&& ~~~m

end Sys2Proof.Machine
end

