-- ==== Sys2Proof/Machine/System.lean ====
section
/-! DEFINITION. FENCE, the hints, ECALL, EBREAK, FENCE.I and the CSR instructions (40_rv32i_base.md R315 to R322;
42_zifencei_hints.md; 45_zicsr_counters.md). A CSR instruction hands its own encoding to `csrAccess`, which an
illegal-instruction exception reports. -/

namespace Sys2Proof.Machine

/-- FENCE (40_rv32i_base.md R315): orders this hart's accesses for other observers: nothing one hart can see.
-/
def execFence (_fm : BitVec 4) (_pred : BitVec 4) (_succ : BitVec 4) (_rs1 : RegNum) (_rd : RegNum) (s : State)
    : Res :=
  noEffect 4 s

/-- FENCE.TSO (40_rv32i_base.md R316): orders this hart's accesses for other observers: nothing one hart can
see. -/
def execFenceTso (s : State) : Res :=
  noEffect 4 s

/-- PAUSE (42_zifencei_hints.md R415): a hint: only the pc and the counters advance. -/
def execPause (s : State) : Res :=
  noEffect 4 s

/-- ECALL (40_rv32i_base.md R321): environment-call exception. -/
def execEcall (s : State) : Res :=
  environmentCall s

/-- EBREAK (40_rv32i_base.md R322): breakpoint exception. -/
def execEbreak (s : State) : Res :=
  breakpoint s

/-- NTL.P1 (42_zifencei_hints.md R406): a hint: only the pc and the counters advance. -/
def execNtlP1 (s : State) : Res :=
  noEffect 4 s

/-- NTL.PALL (42_zifencei_hints.md R407): a hint: only the pc and the counters advance. -/
def execNtlPall (s : State) : Res :=
  noEffect 4 s

/-- NTL.S1 (42_zifencei_hints.md R408): a hint: only the pc and the counters advance. -/
def execNtlS1 (s : State) : Res :=
  noEffect 4 s

/-- NTL.ALL (42_zifencei_hints.md R409): a hint: only the pc and the counters advance. -/
def execNtlAll (s : State) : Res :=
  noEffect 4 s

/-- FENCE.I (42_zifencei_hints.md R400): later fetches see every store made so far. -/
def execFenceI (_imm : BitVec 12) (_rs1 : RegNum) (_rd : RegNum) (s : State) : Res :=
  fenceInstr s

/-- CSRRW (45_zicsr_counters.md R524): `x[rd]` gets the old value, the CSR gets `x[rs1]`. -/
def execCsrrw (rd : RegNum) (csr : BitVec 12) (rs1 : RegNum) (s : State) : Res :=
  csrAccess csr rd (some (fun _ => readX rs1 s)) (encode (.csrrw rd csr rs1)) s

/-- CSRRS (45_zicsr_counters.md R525): `x[rd]` gets the old value, the bits of `x[rs1]` are set; no write if
`rs1 = x0`. -/
def execCsrrs (rd : RegNum) (csr : BitVec 12) (rs1 : RegNum) (s : State) : Res :=
  csrAccess csr rd (if rs1 = 0 then none else some (csrSet (readX rs1 s))) (encode (.csrrs rd csr rs1)) s

/-- CSRRC (45_zicsr_counters.md R526): `x[rd]` gets the old value, the bits of `x[rs1]` are cleared; no write
if `rs1 = x0`. -/
def execCsrrc (rd : RegNum) (csr : BitVec 12) (rs1 : RegNum) (s : State) : Res :=
  csrAccess csr rd (if rs1 = 0 then none else some (csrClear (readX rs1 s))) (encode (.csrrc rd csr rs1)) s

/-- CSRRWI (45_zicsr_counters.md R527): `x[rd]` gets the old value, the CSR gets `uimm`. -/
def execCsrrwi (rd : RegNum) (csr : BitVec 12) (uimm : BitVec 5) (s : State) : Res :=
  csrAccess csr rd (some (fun _ => uimm.setWidth 64)) (encode (.csrrwi rd csr uimm)) s

/-- CSRRSI (45_zicsr_counters.md R528): `x[rd]` gets the old value, the bits of `uimm` are set; no write if
`uimm = 0`. -/
def execCsrrsi (rd : RegNum) (csr : BitVec 12) (uimm : BitVec 5) (s : State) : Res :=
  csrAccess csr rd (if uimm = 0 then none else some (csrSet (uimm.setWidth 64))) (encode (.csrrsi rd csr uimm)) s

/-- CSRRCI (45_zicsr_counters.md R529): `x[rd]` gets the old value, the bits of `uimm` are cleared; no write
if `uimm = 0`. -/
def execCsrrci (rd : RegNum) (csr : BitVec 12) (uimm : BitVec 5) (s : State) : Res :=
  csrAccess csr rd (if uimm = 0 then none else some (csrClear (uimm.setWidth 64))) (encode (.csrrci rd csr uimm)) s

end Sys2Proof.Machine
end

