-- ==== Sys2Proof/Machine/Dispatch.lean ====
section
/-! DEFINITION. The dispatch: one arm per constructor of `Instr`, each one call of its meaning. -/

namespace Sys2Proof.Machine

/-- What an instruction does to a state. -/
def exec (i : Instr) (s : State) : Host.Outcome State Fault Refusal :=
  match i with
  | .lui rd imm => Sys2Proof.Machine.execLui rd imm s
  | .auipc rd imm => Sys2Proof.Machine.execAuipc rd imm s
  | .jal rd imm => Sys2Proof.Machine.execJal rd imm s
  | .jalr rd rs1 imm => Sys2Proof.Machine.execJalr rd rs1 imm s
  | .beq rs1 rs2 imm => Sys2Proof.Machine.execBeq rs1 rs2 imm s
  | .bne rs1 rs2 imm => Sys2Proof.Machine.execBne rs1 rs2 imm s
  | .blt rs1 rs2 imm => Sys2Proof.Machine.execBlt rs1 rs2 imm s
  | .bge rs1 rs2 imm => Sys2Proof.Machine.execBge rs1 rs2 imm s
  | .bltu rs1 rs2 imm => Sys2Proof.Machine.execBltu rs1 rs2 imm s
  | .bgeu rs1 rs2 imm => Sys2Proof.Machine.execBgeu rs1 rs2 imm s
  | .lb rd rs1 imm => Sys2Proof.Machine.execLb rd rs1 imm s
  | .lh rd rs1 imm => Sys2Proof.Machine.execLh rd rs1 imm s
  | .lw rd rs1 imm => Sys2Proof.Machine.execLw rd rs1 imm s
  | .lbu rd rs1 imm => Sys2Proof.Machine.execLbu rd rs1 imm s
  | .lhu rd rs1 imm => Sys2Proof.Machine.execLhu rd rs1 imm s
  | .sb rs2 rs1 imm => Sys2Proof.Machine.execSb rs2 rs1 imm s
  | .sh rs2 rs1 imm => Sys2Proof.Machine.execSh rs2 rs1 imm s
  | .sw rs2 rs1 imm => Sys2Proof.Machine.execSw rs2 rs1 imm s
  | .addi rd rs1 imm => Sys2Proof.Machine.execAddi rd rs1 imm s
  | .slti rd rs1 imm => Sys2Proof.Machine.execSlti rd rs1 imm s
  | .sltiu rd rs1 imm => Sys2Proof.Machine.execSltiu rd rs1 imm s
  | .xori rd rs1 imm => Sys2Proof.Machine.execXori rd rs1 imm s
  | .ori rd rs1 imm => Sys2Proof.Machine.execOri rd rs1 imm s
  | .andi rd rs1 imm => Sys2Proof.Machine.execAndi rd rs1 imm s
  | .slli rd rs1 shamt => Sys2Proof.Machine.execSlli rd rs1 shamt s
  | .srli rd rs1 shamt => Sys2Proof.Machine.execSrli rd rs1 shamt s
  | .srai rd rs1 shamt => Sys2Proof.Machine.execSrai rd rs1 shamt s
  | .add rd rs1 rs2 => Sys2Proof.Machine.execAdd rd rs1 rs2 s
  | .sub rd rs1 rs2 => Sys2Proof.Machine.execSub rd rs1 rs2 s
  | .sll rd rs1 rs2 => Sys2Proof.Machine.execSll rd rs1 rs2 s
  | .slt rd rs1 rs2 => Sys2Proof.Machine.execSlt rd rs1 rs2 s
  | .sltu rd rs1 rs2 => Sys2Proof.Machine.execSltu rd rs1 rs2 s
  | .xor rd rs1 rs2 => Sys2Proof.Machine.execXor rd rs1 rs2 s
  | .srl rd rs1 rs2 => Sys2Proof.Machine.execSrl rd rs1 rs2 s
  | .sra rd rs1 rs2 => Sys2Proof.Machine.execSra rd rs1 rs2 s
  | .or rd rs1 rs2 => Sys2Proof.Machine.execOr rd rs1 rs2 s
  | .and rd rs1 rs2 => Sys2Proof.Machine.execAnd rd rs1 rs2 s
  | .fence fm pred succ rs1 rd => Sys2Proof.Machine.execFence fm pred succ rs1 rd s
  | .fenceTso => Sys2Proof.Machine.execFenceTso s
  | .pause => Sys2Proof.Machine.execPause s
  | .ecall => Sys2Proof.Machine.execEcall s
  | .ebreak => Sys2Proof.Machine.execEbreak s
  | .ntlP1 => Sys2Proof.Machine.execNtlP1 s
  | .ntlPall => Sys2Proof.Machine.execNtlPall s
  | .ntlS1 => Sys2Proof.Machine.execNtlS1 s
  | .ntlAll => Sys2Proof.Machine.execNtlAll s
  | .lwu rd rs1 imm => Sys2Proof.Machine.execLwu rd rs1 imm s
  | .ld rd rs1 imm => Sys2Proof.Machine.execLd rd rs1 imm s
  | .sd rs2 rs1 imm => Sys2Proof.Machine.execSd rs2 rs1 imm s
  | .addiw rd rs1 imm => Sys2Proof.Machine.execAddiw rd rs1 imm s
  | .slliw rd rs1 shamt => Sys2Proof.Machine.execSlliw rd rs1 shamt s
  | .srliw rd rs1 shamt => Sys2Proof.Machine.execSrliw rd rs1 shamt s
  | .sraiw rd rs1 shamt => Sys2Proof.Machine.execSraiw rd rs1 shamt s
  | .addw rd rs1 rs2 => Sys2Proof.Machine.execAddw rd rs1 rs2 s
  | .subw rd rs1 rs2 => Sys2Proof.Machine.execSubw rd rs1 rs2 s
  | .sllw rd rs1 rs2 => Sys2Proof.Machine.execSllw rd rs1 rs2 s
  | .srlw rd rs1 rs2 => Sys2Proof.Machine.execSrlw rd rs1 rs2 s
  | .sraw rd rs1 rs2 => Sys2Proof.Machine.execSraw rd rs1 rs2 s
  | .fenceI imm rs1 rd => Sys2Proof.Machine.execFenceI imm rs1 rd s
  | .csrrw rd csr rs1 => Sys2Proof.Machine.execCsrrw rd csr rs1 s
  | .csrrs rd csr rs1 => Sys2Proof.Machine.execCsrrs rd csr rs1 s
  | .csrrc rd csr rs1 => Sys2Proof.Machine.execCsrrc rd csr rs1 s
  | .csrrwi rd csr uimm => Sys2Proof.Machine.execCsrrwi rd csr uimm s
  | .csrrsi rd csr uimm => Sys2Proof.Machine.execCsrrsi rd csr uimm s
  | .csrrci rd csr uimm => Sys2Proof.Machine.execCsrrci rd csr uimm s
  | .mul rd rs1 rs2 => Sys2Proof.Machine.execMul rd rs1 rs2 s
  | .mulh rd rs1 rs2 => Sys2Proof.Machine.execMulh rd rs1 rs2 s
  | .mulhsu rd rs1 rs2 => Sys2Proof.Machine.execMulhsu rd rs1 rs2 s
  | .mulhu rd rs1 rs2 => Sys2Proof.Machine.execMulhu rd rs1 rs2 s
  | .div rd rs1 rs2 => Sys2Proof.Machine.execDiv rd rs1 rs2 s
  | .divu rd rs1 rs2 => Sys2Proof.Machine.execDivu rd rs1 rs2 s
  | .rem rd rs1 rs2 => Sys2Proof.Machine.execRem rd rs1 rs2 s
  | .remu rd rs1 rs2 => Sys2Proof.Machine.execRemu rd rs1 rs2 s
  | .mulw rd rs1 rs2 => Sys2Proof.Machine.execMulw rd rs1 rs2 s
  | .divw rd rs1 rs2 => Sys2Proof.Machine.execDivw rd rs1 rs2 s
  | .divuw rd rs1 rs2 => Sys2Proof.Machine.execDivuw rd rs1 rs2 s
  | .remw rd rs1 rs2 => Sys2Proof.Machine.execRemw rd rs1 rs2 s
  | .remuw rd rs1 rs2 => Sys2Proof.Machine.execRemuw rd rs1 rs2 s
  | .lrW rd rs1 aq rl => Sys2Proof.Machine.execLrW rd rs1 aq rl s
  | .scW rd rs1 rs2 aq rl => Sys2Proof.Machine.execScW rd rs1 rs2 aq rl s
  | .amoswapW rd rs1 rs2 aq rl => Sys2Proof.Machine.execAmoswapW rd rs1 rs2 aq rl s
  | .amoaddW rd rs1 rs2 aq rl => Sys2Proof.Machine.execAmoaddW rd rs1 rs2 aq rl s
  | .amoxorW rd rs1 rs2 aq rl => Sys2Proof.Machine.execAmoxorW rd rs1 rs2 aq rl s
  | .amoandW rd rs1 rs2 aq rl => Sys2Proof.Machine.execAmoandW rd rs1 rs2 aq rl s
  | .amoorW rd rs1 rs2 aq rl => Sys2Proof.Machine.execAmoorW rd rs1 rs2 aq rl s
  | .amominW rd rs1 rs2 aq rl => Sys2Proof.Machine.execAmominW rd rs1 rs2 aq rl s
  | .amomaxW rd rs1 rs2 aq rl => Sys2Proof.Machine.execAmomaxW rd rs1 rs2 aq rl s
  | .amominuW rd rs1 rs2 aq rl => Sys2Proof.Machine.execAmominuW rd rs1 rs2 aq rl s
  | .amomaxuW rd rs1 rs2 aq rl => Sys2Proof.Machine.execAmomaxuW rd rs1 rs2 aq rl s
  | .lrD rd rs1 aq rl => Sys2Proof.Machine.execLrD rd rs1 aq rl s
  | .scD rd rs1 rs2 aq rl => Sys2Proof.Machine.execScD rd rs1 rs2 aq rl s
  | .amoswapD rd rs1 rs2 aq rl => Sys2Proof.Machine.execAmoswapD rd rs1 rs2 aq rl s
  | .amoaddD rd rs1 rs2 aq rl => Sys2Proof.Machine.execAmoaddD rd rs1 rs2 aq rl s
  | .amoxorD rd rs1 rs2 aq rl => Sys2Proof.Machine.execAmoxorD rd rs1 rs2 aq rl s
  | .amoandD rd rs1 rs2 aq rl => Sys2Proof.Machine.execAmoandD rd rs1 rs2 aq rl s
  | .amoorD rd rs1 rs2 aq rl => Sys2Proof.Machine.execAmoorD rd rs1 rs2 aq rl s
  | .amominD rd rs1 rs2 aq rl => Sys2Proof.Machine.execAmominD rd rs1 rs2 aq rl s
  | .amomaxD rd rs1 rs2 aq rl => Sys2Proof.Machine.execAmomaxD rd rs1 rs2 aq rl s
  | .amominuD rd rs1 rs2 aq rl => Sys2Proof.Machine.execAmominuD rd rs1 rs2 aq rl s
  | .amomaxuD rd rs1 rs2 aq rl => Sys2Proof.Machine.execAmomaxuD rd rs1 rs2 aq rl s
  | .flw rd rs1 imm => Sys2Proof.Machine.execFlw rd rs1 imm s
  | .fsw rs2 rs1 imm => Sys2Proof.Machine.execFsw rs2 rs1 imm s
  | .fmaddS rd rs1 rs2 rs3 rm => Sys2Proof.Machine.execFmaddS rd rs1 rs2 rs3 rm s
  | .fmsubS rd rs1 rs2 rs3 rm => Sys2Proof.Machine.execFmsubS rd rs1 rs2 rs3 rm s
  | .fnmsubS rd rs1 rs2 rs3 rm => Sys2Proof.Machine.execFnmsubS rd rs1 rs2 rs3 rm s
  | .fnmaddS rd rs1 rs2 rs3 rm => Sys2Proof.Machine.execFnmaddS rd rs1 rs2 rs3 rm s
  | .faddS rd rs1 rs2 rm => Sys2Proof.Machine.execFaddS rd rs1 rs2 rm s
  | .fsubS rd rs1 rs2 rm => Sys2Proof.Machine.execFsubS rd rs1 rs2 rm s
  | .fmulS rd rs1 rs2 rm => Sys2Proof.Machine.execFmulS rd rs1 rs2 rm s
  | .fdivS rd rs1 rs2 rm => Sys2Proof.Machine.execFdivS rd rs1 rs2 rm s
  | .fsqrtS rd rs1 rm => Sys2Proof.Machine.execFsqrtS rd rs1 rm s
  | .fsgnjS rd rs1 rs2 => Sys2Proof.Machine.execFsgnjS rd rs1 rs2 s
  | .fsgnjnS rd rs1 rs2 => Sys2Proof.Machine.execFsgnjnS rd rs1 rs2 s
  | .fsgnjxS rd rs1 rs2 => Sys2Proof.Machine.execFsgnjxS rd rs1 rs2 s
  | .fminS rd rs1 rs2 => Sys2Proof.Machine.execFminS rd rs1 rs2 s
  | .fmaxS rd rs1 rs2 => Sys2Proof.Machine.execFmaxS rd rs1 rs2 s
  | .fcvtWS rd rs1 rm => Sys2Proof.Machine.execFcvtWS rd rs1 rm s
  | .fcvtWuS rd rs1 rm => Sys2Proof.Machine.execFcvtWuS rd rs1 rm s
  | .fcvtLS rd rs1 rm => Sys2Proof.Machine.execFcvtLS rd rs1 rm s
  | .fcvtLuS rd rs1 rm => Sys2Proof.Machine.execFcvtLuS rd rs1 rm s
  | .fcvtSW rd rs1 rm => Sys2Proof.Machine.execFcvtSW rd rs1 rm s
  | .fcvtSWu rd rs1 rm => Sys2Proof.Machine.execFcvtSWu rd rs1 rm s
  | .fcvtSL rd rs1 rm => Sys2Proof.Machine.execFcvtSL rd rs1 rm s
  | .fcvtSLu rd rs1 rm => Sys2Proof.Machine.execFcvtSLu rd rs1 rm s
  | .feqS rd rs1 rs2 => Sys2Proof.Machine.execFeqS rd rs1 rs2 s
  | .fltS rd rs1 rs2 => Sys2Proof.Machine.execFltS rd rs1 rs2 s
  | .fleS rd rs1 rs2 => Sys2Proof.Machine.execFleS rd rs1 rs2 s
  | .fclassS rd rs1 => Sys2Proof.Machine.execFclassS rd rs1 s
  | .fmvXW rd rs1 => Sys2Proof.Machine.execFmvXW rd rs1 s
  | .fmvWX rd rs1 => Sys2Proof.Machine.execFmvWX rd rs1 s
  | .fld rd rs1 imm => Sys2Proof.Machine.execFld rd rs1 imm s
  | .fsd rs2 rs1 imm => Sys2Proof.Machine.execFsd rs2 rs1 imm s
  | .fmaddD rd rs1 rs2 rs3 rm => Sys2Proof.Machine.execFmaddD rd rs1 rs2 rs3 rm s
  | .fmsubD rd rs1 rs2 rs3 rm => Sys2Proof.Machine.execFmsubD rd rs1 rs2 rs3 rm s
  | .fnmsubD rd rs1 rs2 rs3 rm => Sys2Proof.Machine.execFnmsubD rd rs1 rs2 rs3 rm s
  | .fnmaddD rd rs1 rs2 rs3 rm => Sys2Proof.Machine.execFnmaddD rd rs1 rs2 rs3 rm s
  | .faddD rd rs1 rs2 rm => Sys2Proof.Machine.execFaddD rd rs1 rs2 rm s
  | .fsubD rd rs1 rs2 rm => Sys2Proof.Machine.execFsubD rd rs1 rs2 rm s
  | .fmulD rd rs1 rs2 rm => Sys2Proof.Machine.execFmulD rd rs1 rs2 rm s
  | .fdivD rd rs1 rs2 rm => Sys2Proof.Machine.execFdivD rd rs1 rs2 rm s
  | .fsqrtD rd rs1 rm => Sys2Proof.Machine.execFsqrtD rd rs1 rm s
  | .fsgnjD rd rs1 rs2 => Sys2Proof.Machine.execFsgnjD rd rs1 rs2 s
  | .fsgnjnD rd rs1 rs2 => Sys2Proof.Machine.execFsgnjnD rd rs1 rs2 s
  | .fsgnjxD rd rs1 rs2 => Sys2Proof.Machine.execFsgnjxD rd rs1 rs2 s
  | .fminD rd rs1 rs2 => Sys2Proof.Machine.execFminD rd rs1 rs2 s
  | .fmaxD rd rs1 rs2 => Sys2Proof.Machine.execFmaxD rd rs1 rs2 s
  | .fcvtWD rd rs1 rm => Sys2Proof.Machine.execFcvtWD rd rs1 rm s
  | .fcvtWuD rd rs1 rm => Sys2Proof.Machine.execFcvtWuD rd rs1 rm s
  | .fcvtLD rd rs1 rm => Sys2Proof.Machine.execFcvtLD rd rs1 rm s
  | .fcvtLuD rd rs1 rm => Sys2Proof.Machine.execFcvtLuD rd rs1 rm s
  | .fcvtDW rd rs1 rm => Sys2Proof.Machine.execFcvtDW rd rs1 rm s
  | .fcvtDWu rd rs1 rm => Sys2Proof.Machine.execFcvtDWu rd rs1 rm s
  | .fcvtDL rd rs1 rm => Sys2Proof.Machine.execFcvtDL rd rs1 rm s
  | .fcvtDLu rd rs1 rm => Sys2Proof.Machine.execFcvtDLu rd rs1 rm s
  | .feqD rd rs1 rs2 => Sys2Proof.Machine.execFeqD rd rs1 rs2 s
  | .fltD rd rs1 rs2 => Sys2Proof.Machine.execFltD rd rs1 rs2 s
  | .fleD rd rs1 rs2 => Sys2Proof.Machine.execFleD rd rs1 rs2 s
  | .fclassD rd rs1 => Sys2Proof.Machine.execFclassD rd rs1 s
  | .fcvtSD rd rs1 rm => Sys2Proof.Machine.execFcvtSD rd rs1 rm s
  | .fcvtDS rd rs1 rm => Sys2Proof.Machine.execFcvtDS rd rs1 rm s
  | .fmvXD rd rs1 => Sys2Proof.Machine.execFmvXD rd rs1 s
  | .fmvDX rd rs1 => Sys2Proof.Machine.execFmvDX rd rs1 s
  | .flq rd rs1 imm => Sys2Proof.Machine.execFlq rd rs1 imm s
  | .fsq rs2 rs1 imm => Sys2Proof.Machine.execFsq rs2 rs1 imm s
  | .fmaddQ rd rs1 rs2 rs3 rm => Sys2Proof.Machine.execFmaddQ rd rs1 rs2 rs3 rm s
  | .fmsubQ rd rs1 rs2 rs3 rm => Sys2Proof.Machine.execFmsubQ rd rs1 rs2 rs3 rm s
  | .fnmsubQ rd rs1 rs2 rs3 rm => Sys2Proof.Machine.execFnmsubQ rd rs1 rs2 rs3 rm s
  | .fnmaddQ rd rs1 rs2 rs3 rm => Sys2Proof.Machine.execFnmaddQ rd rs1 rs2 rs3 rm s
  | .faddQ rd rs1 rs2 rm => Sys2Proof.Machine.execFaddQ rd rs1 rs2 rm s
  | .fsubQ rd rs1 rs2 rm => Sys2Proof.Machine.execFsubQ rd rs1 rs2 rm s
  | .fmulQ rd rs1 rs2 rm => Sys2Proof.Machine.execFmulQ rd rs1 rs2 rm s
  | .fdivQ rd rs1 rs2 rm => Sys2Proof.Machine.execFdivQ rd rs1 rs2 rm s
  | .fsqrtQ rd rs1 rm => Sys2Proof.Machine.execFsqrtQ rd rs1 rm s
  | .fsgnjQ rd rs1 rs2 => Sys2Proof.Machine.execFsgnjQ rd rs1 rs2 s
  | .fsgnjnQ rd rs1 rs2 => Sys2Proof.Machine.execFsgnjnQ rd rs1 rs2 s
  | .fsgnjxQ rd rs1 rs2 => Sys2Proof.Machine.execFsgnjxQ rd rs1 rs2 s
  | .fminQ rd rs1 rs2 => Sys2Proof.Machine.execFminQ rd rs1 rs2 s
  | .fmaxQ rd rs1 rs2 => Sys2Proof.Machine.execFmaxQ rd rs1 rs2 s
  | .fcvtWQ rd rs1 rm => Sys2Proof.Machine.execFcvtWQ rd rs1 rm s
  | .fcvtWuQ rd rs1 rm => Sys2Proof.Machine.execFcvtWuQ rd rs1 rm s
  | .fcvtLQ rd rs1 rm => Sys2Proof.Machine.execFcvtLQ rd rs1 rm s
  | .fcvtLuQ rd rs1 rm => Sys2Proof.Machine.execFcvtLuQ rd rs1 rm s
  | .fcvtQW rd rs1 rm => Sys2Proof.Machine.execFcvtQW rd rs1 rm s
  | .fcvtQWu rd rs1 rm => Sys2Proof.Machine.execFcvtQWu rd rs1 rm s
  | .fcvtQL rd rs1 rm => Sys2Proof.Machine.execFcvtQL rd rs1 rm s
  | .fcvtQLu rd rs1 rm => Sys2Proof.Machine.execFcvtQLu rd rs1 rm s
  | .feqQ rd rs1 rs2 => Sys2Proof.Machine.execFeqQ rd rs1 rs2 s
  | .fltQ rd rs1 rs2 => Sys2Proof.Machine.execFltQ rd rs1 rs2 s
  | .fleQ rd rs1 rs2 => Sys2Proof.Machine.execFleQ rd rs1 rs2 s
  | .fclassQ rd rs1 => Sys2Proof.Machine.execFclassQ rd rs1 s
  | .fcvtSQ rd rs1 rm => Sys2Proof.Machine.execFcvtSQ rd rs1 rm s
  | .fcvtQS rd rs1 rm => Sys2Proof.Machine.execFcvtQS rd rs1 rm s
  | .fcvtDQ rd rs1 rm => Sys2Proof.Machine.execFcvtDQ rd rs1 rm s
  | .fcvtQD rd rs1 rm => Sys2Proof.Machine.execFcvtQD rd rs1 rm s
  | .flh rd rs1 imm => Sys2Proof.Machine.execFlh rd rs1 imm s
  | .fsh rs2 rs1 imm => Sys2Proof.Machine.execFsh rs2 rs1 imm s
  | .fmaddH rd rs1 rs2 rs3 rm => Sys2Proof.Machine.execFmaddH rd rs1 rs2 rs3 rm s
  | .fmsubH rd rs1 rs2 rs3 rm => Sys2Proof.Machine.execFmsubH rd rs1 rs2 rs3 rm s
  | .fnmsubH rd rs1 rs2 rs3 rm => Sys2Proof.Machine.execFnmsubH rd rs1 rs2 rs3 rm s
  | .fnmaddH rd rs1 rs2 rs3 rm => Sys2Proof.Machine.execFnmaddH rd rs1 rs2 rs3 rm s
  | .faddH rd rs1 rs2 rm => Sys2Proof.Machine.execFaddH rd rs1 rs2 rm s
  | .fsubH rd rs1 rs2 rm => Sys2Proof.Machine.execFsubH rd rs1 rs2 rm s
  | .fmulH rd rs1 rs2 rm => Sys2Proof.Machine.execFmulH rd rs1 rs2 rm s
  | .fdivH rd rs1 rs2 rm => Sys2Proof.Machine.execFdivH rd rs1 rs2 rm s
  | .fsqrtH rd rs1 rm => Sys2Proof.Machine.execFsqrtH rd rs1 rm s
  | .fsgnjH rd rs1 rs2 => Sys2Proof.Machine.execFsgnjH rd rs1 rs2 s
  | .fsgnjnH rd rs1 rs2 => Sys2Proof.Machine.execFsgnjnH rd rs1 rs2 s
  | .fsgnjxH rd rs1 rs2 => Sys2Proof.Machine.execFsgnjxH rd rs1 rs2 s
  | .fminH rd rs1 rs2 => Sys2Proof.Machine.execFminH rd rs1 rs2 s
  | .fmaxH rd rs1 rs2 => Sys2Proof.Machine.execFmaxH rd rs1 rs2 s
  | .fcvtWH rd rs1 rm => Sys2Proof.Machine.execFcvtWH rd rs1 rm s
  | .fcvtWuH rd rs1 rm => Sys2Proof.Machine.execFcvtWuH rd rs1 rm s
  | .fcvtLH rd rs1 rm => Sys2Proof.Machine.execFcvtLH rd rs1 rm s
  | .fcvtLuH rd rs1 rm => Sys2Proof.Machine.execFcvtLuH rd rs1 rm s
  | .fcvtHW rd rs1 rm => Sys2Proof.Machine.execFcvtHW rd rs1 rm s
  | .fcvtHWu rd rs1 rm => Sys2Proof.Machine.execFcvtHWu rd rs1 rm s
  | .fcvtHL rd rs1 rm => Sys2Proof.Machine.execFcvtHL rd rs1 rm s
  | .fcvtHLu rd rs1 rm => Sys2Proof.Machine.execFcvtHLu rd rs1 rm s
  | .feqH rd rs1 rs2 => Sys2Proof.Machine.execFeqH rd rs1 rs2 s
  | .fltH rd rs1 rs2 => Sys2Proof.Machine.execFltH rd rs1 rs2 s
  | .fleH rd rs1 rs2 => Sys2Proof.Machine.execFleH rd rs1 rs2 s
  | .fclassH rd rs1 => Sys2Proof.Machine.execFclassH rd rs1 s
  | .fcvtSH rd rs1 rm => Sys2Proof.Machine.execFcvtSH rd rs1 rm s
  | .fcvtHS rd rs1 rm => Sys2Proof.Machine.execFcvtHS rd rs1 rm s
  | .fcvtDH rd rs1 rm => Sys2Proof.Machine.execFcvtDH rd rs1 rm s
  | .fcvtHD rd rs1 rm => Sys2Proof.Machine.execFcvtHD rd rs1 rm s
  | .fcvtQH rd rs1 rm => Sys2Proof.Machine.execFcvtQH rd rs1 rm s
  | .fcvtHQ rd rs1 rm => Sys2Proof.Machine.execFcvtHQ rd rs1 rm s
  | .fmvXH rd rs1 => Sys2Proof.Machine.execFmvXH rd rs1 s
  | .fmvHX rd rs1 => Sys2Proof.Machine.execFmvHX rd rs1 s
  | .cAddi4spn rd imm => Sys2Proof.Machine.execCAddi4spn rd imm s
  | .cFld rd rs1 imm => Sys2Proof.Machine.execCFld rd rs1 imm s
  | .cLw rd rs1 imm => Sys2Proof.Machine.execCLw rd rs1 imm s
  | .cFlw rd rs1 imm => Sys2Proof.Machine.execCFlw rd rs1 imm s
  | .cLd rd rs1 imm => Sys2Proof.Machine.execCLd rd rs1 imm s
  | .cFsd rs2 rs1 imm => Sys2Proof.Machine.execCFsd rs2 rs1 imm s
  | .cSw rs2 rs1 imm => Sys2Proof.Machine.execCSw rs2 rs1 imm s
  | .cFsw rs2 rs1 imm => Sys2Proof.Machine.execCFsw rs2 rs1 imm s
  | .cSd rs2 rs1 imm => Sys2Proof.Machine.execCSd rs2 rs1 imm s
  | .cNop imm => Sys2Proof.Machine.execCNop imm s
  | .cAddi rd imm => Sys2Proof.Machine.execCAddi rd imm s
  | .cJal off => Sys2Proof.Machine.execCJal off s
  | .cAddiw rd imm => Sys2Proof.Machine.execCAddiw rd imm s
  | .cLi rd imm => Sys2Proof.Machine.execCLi rd imm s
  | .cAddi16sp imm => Sys2Proof.Machine.execCAddi16sp imm s
  | .cLui rd imm => Sys2Proof.Machine.execCLui rd imm s
  | .cSrli rd shamt => Sys2Proof.Machine.execCSrli rd shamt s
  | .cSrai rd shamt => Sys2Proof.Machine.execCSrai rd shamt s
  | .cAndi rd imm => Sys2Proof.Machine.execCAndi rd imm s
  | .cSub rd rs2 => Sys2Proof.Machine.execCSub rd rs2 s
  | .cXor rd rs2 => Sys2Proof.Machine.execCXor rd rs2 s
  | .cOr rd rs2 => Sys2Proof.Machine.execCOr rd rs2 s
  | .cAnd rd rs2 => Sys2Proof.Machine.execCAnd rd rs2 s
  | .cSubw rd rs2 => Sys2Proof.Machine.execCSubw rd rs2 s
  | .cAddw rd rs2 => Sys2Proof.Machine.execCAddw rd rs2 s
  | .cJ off => Sys2Proof.Machine.execCJ off s
  | .cBeqz rs1 off => Sys2Proof.Machine.execCBeqz rs1 off s
  | .cBnez rs1 off => Sys2Proof.Machine.execCBnez rs1 off s
  | .cSlli rd shamt => Sys2Proof.Machine.execCSlli rd shamt s
  | .cFldsp rd imm => Sys2Proof.Machine.execCFldsp rd imm s
  | .cLwsp rd imm => Sys2Proof.Machine.execCLwsp rd imm s
  | .cFlwsp rd imm => Sys2Proof.Machine.execCFlwsp rd imm s
  | .cLdsp rd imm => Sys2Proof.Machine.execCLdsp rd imm s
  | .cJr rs1 => Sys2Proof.Machine.execCJr rs1 s
  | .cMv rd rs2 => Sys2Proof.Machine.execCMv rd rs2 s
  | .cEbreak => Sys2Proof.Machine.execCEbreak s
  | .cJalr rs1 => Sys2Proof.Machine.execCJalr rs1 s
  | .cAdd rd rs2 => Sys2Proof.Machine.execCAdd rd rs2 s
  | .cFsdsp rs2 imm => Sys2Proof.Machine.execCFsdsp rs2 imm s
  | .cSwsp rs2 imm => Sys2Proof.Machine.execCSwsp rs2 imm s
  | .cFswsp rs2 imm => Sys2Proof.Machine.execCFswsp rs2 imm s
  | .cSdsp rs2 imm => Sys2Proof.Machine.execCSdsp rs2 imm s
  | .cNtlP1 => Sys2Proof.Machine.execCNtlP1 s
  | .cNtlPall => Sys2Proof.Machine.execCNtlPall s
  | .cNtlS1 => Sys2Proof.Machine.execCNtlS1 s
  | .cNtlAll => Sys2Proof.Machine.execCNtlAll s

end Sys2Proof.Machine
end

