-- ==== Sys2Proof/Machine/Fetch.lean ====
section
/-! DEFINITION. What a step does around `exec`: the counters advance, the environment agent has its turn, a pending
trap is resolved, else one instruction is fetched (30_encoding.md R195; 20_memory.md R120 to R123), decoded and run. -/

namespace Sys2Proof.Machine

/-! ### The counters and the free values -/

/-- One `hpmcounter` after one step: a counting one has advanced (10_state.md R64, D12). -/
def hpmTick (k : HpmKind) (index draw : Nat) (v : BitVec 64) : BitVec 64 :=
  match k with
  | .counting => v + Config.hpmAdvance index draw
  | .constant _ => v
  | .unimplemented => v

/-- The clock of a step: `cycle`, `time` and the counting counters advance by free amounts, and the free
values of this step are read at the next index (10_state.md R61, R62, R64; D12; entries 17, 33). -/
def tick (s : State) : State :=
  { s with
    cycle := s.cycle + Config.cycleAdvance s.draw
    time := s.time + Config.timeAdvance s.draw
    hpm := Vector.ofFn (fun i => hpmTick (s.cfg.hpm[i]) i.val s.draw (s.hpm[i]))
    draw := s.draw + 1 }

/-- The start of a step: the clock, then the environment agent. -/
def startStep (s : State) : State := agentTurn 0 (tick s)

/-! ### Instruction fetch -/

/-- The older values of a byte that a fetch may still return (20_memory.md R120). -/
def staleValues (s : State) (a : Nat) : List Byte :=
  (s.stale.filter (fun c => c.1 == a)).map (fun c => c.2)

/-- What the fetch of one byte returns: memory's byte if no store since the last FENCE.I changed it, else
one of the values it has held since, by a free choice; in an I/O region the device's answer
(20_memory.md R120, R123, D16). -/
def fetchByte (s : State) (a : Nat) : Byte :=
  if isIo s.cfg a then Config.ioFetch a s.draw
  else
    match staleValues s a with
    | [] => Memory.get s.mem a
    | old :: older =>
      (Memory.get s.mem a :: old :: older).getD
        (Config.fetchChoice a s.draw % (older.length + 2)) (Memory.get s.mem a)

/-- Whether an address may be fetched from: in a region with execute permission (20_memory.md R122). -/
def fetchPermitted (c : Cfg) (a : Nat) : Bool :=
  match regionAt c a with
  | some r => r.x
  | none => false

/-- The parcel at an address, little-endian whatever the data byte order; none if a byte may not be
fetched (30_encoding.md R191; 20_memory.md R97, R122). -/
def fetchParcel (s : State) (a : Word) : Option Parcel :=
  if (byteAddrs s.cfg a 2).all (fetchPermitted s.cfg) then
    some (BitVec.ofNat 16 (bytesToNat ((byteAddrs s.cfg a 2).map (fetchByte s))))
  else none

/-- What the first parcel says of the second (30_encoding.md R192 to R195). -/
inductive Second where
  /-- the instruction ends with the first parcel -/
  | absent
  /-- the instruction has a second parcel -/
  | required
  /-- a parcel of ones: the word of ones if the second parcel is one too -/
  | onesOnly
deriving DecidableEq, Repr

/-- Whether a second parcel is fetched: for a 32-bit instruction; for an all-zero parcel where no 16-bit
instruction exists, since the illegal all-zero instruction is then 32 bits long; for a parcel of ones
(30_encoding.md R192, R194; entry 15). -/
def secondParcel (c : Cfg) (p : Parcel) : Second :=
  if isCompressed (p.setWidth 32) then
    if p = 0 ∧ c.ext.c = false then .required else .absent
  else if isLong (p.setWidth 32) then
    if p = BitVec.allOnes 16 then .onesOnly else .absent
  else .required

/-- What a fetch answers. -/
inductive Fetched where
  /-- the instruction's bits, zero above them -/
  | word (w : InstrWord)
  /-- a byte may not be fetched -/
  | accessFault
deriving DecidableEq, Repr

/-- Fetch the instruction at the pc (30_encoding.md R195). -/
def fetch (s : State) : Fetched :=
  match fetchParcel s (curPc s) with
  | none => .accessFault
  | some p =>
    match secondParcel s.cfg p with
    | .absent => .word (p.setWidth 32)
    | .required =>
      match fetchParcel s (curPc s + 2) with
      | none => .accessFault
      | some q => .word (q ++ p)
    | .onesOnly =>
      match fetchParcel s (curPc s + 2) with
      | none => .word (p.setWidth 32)
      | some q => if q = BitVec.allOnes 16 then .word (q ++ p) else .word (p.setWidth 32)

/-! ### Constrained LR/SC loops -/

/-- What an instruction is to a constrained LR/SC loop (44_a_zam.md R467; 48_c.md R865). -/
inductive LoopRole where
  /-- an LR of `n` bytes at the address in a register -/
  | reserve (rs1 : RegNum) (n : Nat)
  /-- an SC -/
  | conditional
  /-- an instruction of the given length that may stand in the loop -/
  | body (len : Nat)
  /-- any other -/
  | other
deriving DecidableEq, Repr

/-- The role of an instruction: only those of the base "I" set that are no load, store, JALR, FENCE or SYSTEM
instruction, and their compressed forms, may stand between the LR and the SC or in the code to retry; the NTL hints
are among them, PAUSE is not (44_a_zam.md R467; 42_zifencei_hints.md R411, R415). -/
def loopRole (i : Instr) : LoopRole :=
  match i with
  | .lrW _ rs1 _ _ => .reserve rs1 4
  | .lrD _ rs1 _ _ => .reserve rs1 8
  | .scW .. | .scD .. => .conditional
  | .lui .. | .auipc .. | .jal .. | .beq .. | .bne .. | .blt .. | .bge .. | .bltu .. | .bgeu .. | .addi ..
  | .slti .. | .sltiu .. | .xori .. | .ori .. | .andi .. | .slli .. | .srli .. | .srai .. | .add .. | .sub ..
  | .sll .. | .slt .. | .sltu .. | .xor .. | .srl .. | .sra .. | .or .. | .and .. | .addiw .. | .slliw ..
  | .srliw .. | .sraiw .. | .addw .. | .subw .. | .sllw .. | .srlw .. | .sraw .. | .ntlP1 | .ntlPall | .ntlS1
  | .ntlAll => .body 4
  | .cAddi4spn .. | .cNop .. | .cAddi .. | .cJal .. | .cAddiw .. | .cLi .. | .cAddi16sp .. | .cLui .. | .cSrli ..
  | .cSrai .. | .cAndi .. | .cSub .. | .cXor .. | .cOr .. | .cAnd .. | .cSubw .. | .cAddw .. | .cJ .. | .cBeqz ..
  | .cBnez .. | .cSlli .. | .cMv .. | .cAdd .. | .cNtlP1 | .cNtlPall | .cNtlS1 | .cNtlAll => .body 2
  | _ => .other

/-- Whether the second address is after the first on the circular address space, no more than half of it away
(20_memory.md R90; 10_state.md R46): what no backward transfer reaches. -/
def isAhead (c : Cfg) (p q : Nat) : Bool :=
  let distance := (q + (2 ^ c.xlen.bits - p % 2 ^ c.xlen.bits)) % 2 ^ c.xlen.bits
  decide (0 < distance) && decide (distance < 2 ^ (c.xlen.bits - 1))

/-- The loop with one more instruction executed. -/
def watchRun (pc len : Nat) (w : LoopWatch) : LoopWatch :=
  { w with code := (pc, len) :: w.code.filter (fun i => i.1 != pc), last := pc }

/-- The loop at an instruction that may stand in it: between the LR and the SC no transfer may go backwards, in the code
to retry it may (44_a_zam.md R467). -/
def watchStep (c : Cfg) (pc len : Nat) (w : LoopWatch) : Option LoopWatch :=
  if w.retrying || isAhead c w.last pc then some (watchRun pc len w) else none

/-- The loop at an LR: the same one if the code to retry has led back to its LR, else a new one (44_a_zam.md R467). -/
def watchReserve (pc a n : Nat) (s : State) : LoopWatch :=
  match s.watch.filter (fun w => w.retrying && w.lrPc == pc) with
  | some w =>
    { watchRun pc 4 w with lrAddr := a, lrLen := n, retrying := false }
  | none =>
    { since := s.draw, lrPc := pc, lrAddr := a, lrLen := n, code := [(pc, 4)], last := pc,
      retrying := false, failures := 0 }

/-- Note an instruction about to run, for the eventual success of constrained LR/SC loops (44_a_zam.md R467). No
architectural state changes. That a loop is recognised by what runs is the model's: DEDUCED, entry 36. -/
def observe (i : Instr) (s : State) : State :=
  let pc := (curPc s).toNat
  match loopRole i with
  | .reserve rs1 n => { s with watch := some (watchReserve pc (effAddr rs1 0 s).toNat n s) }
  | .conditional => { s with watch := s.watch.bind (watchStep s.cfg pc 4) }
  | .body len => { s with watch := s.watch.bind (watchStep s.cfg pc len) }
  | .other => { s with watch := none }

/-! ### One step -/

/-- Run the word fetched: the decoded instruction, or an illegal-instruction exception with the word's
bits (60_exceptions.md R952, D9). -/
noncomputable def runWord (w : InstrWord) (s : State) : Res :=
  match decode s.cfg w with
  | .instr i => exec i (observe i s)
  | .rejected _ => illegal w s

/-- Fetch and run one instruction; a failed fetch is an instruction access fault, `info` the pc
(60_exceptions.md R951). -/
noncomputable def runInstr (s : State) : Res :=
  match fetch s with
  | .accessFault => raise .instrAccessFault (curPc s) s
  | .word w => runWord w s

/-- One step once it has started: a pending trap is the environment's to resolve
(60_exceptions.md R945), else an instruction runs. -/
noncomputable def stepStarted (s : State) : Res :=
  match s.trap with
  | some r => resolveTrap r s
  | none => runInstr s

/-! ### Placing an instruction -/

/-- Bytes put into memory from outside the machine: no older value of theirs can be fetched. -/
def loadBytes : List Host.Cell → State → State
  | [], s => s
  | (a, v) :: rest, s =>
    loadBytes rest { s with mem := Memory.set s.mem a v, stale := s.stale.filter (fun c => c.1 != a) }

/-- The state with an instruction word where the next step fetches, and no trap pending: what a loader
outside the machine does (entry 6). -/
def placeWord (w : InstrWord) (s : State) : State :=
  loadBytes ((byteAddrs s.cfg (curPc s) 4).zip (bytesOfWord w)) { s with trap := none }

end Sys2Proof.Machine
end

