-- ==== Sys2Proof/Machine/Step.lean ====
section
/-! DEFINITION. One step of the machine, and the state with an instruction placed where the next step
fetches. What they do is in Sys2Proof/Machine/Fetch.lean. -/

namespace Sys2Proof.Machine

/-- One step: the counters advance and the environment agent has its turn; then a pending trap is resolved, or one
instruction is fetched, decoded and run. -/
noncomputable def step (s : State) : Host.Outcome State Fault Refusal := stepStarted (startStep s)

/-- The state with the first `nbits` bits of `w`, zero above them, where `step` fetches next (entry 6). -/
def State.withFetchWord (s : State) (nbits w : Nat) : State := placeWord (tableWord nbits w) s

end Sys2Proof.Machine
end

