-- ==== Sys2Proof/Safety.lean ====
section
/-! DEFINITION. The terms in which claims about the machine are stated: what a step keeps, how an instruction
completes, how it traps, and the invariant of a safe run. -/

namespace Sys2Proof.Machine

/-! ### What is kept -/

/-- Every integer register but one reads as before. -/
def KeptXBut (rd : RegNum) (s t : State) : Prop := ∀ r, r ≠ rd → readX r t = readX r s

/-- Every integer register reads as before. -/
def KeptX (s t : State) : Prop := ∀ r, readX r t = readX r s

/-- Every floating-point register reads as before. -/
def KeptF (s t : State) : Prop := ∀ r, readF r t = readF r s

/-- `frm` and the accrued flags are as before. -/
def KeptFcsr (s t : State) : Prop := t.frm = s.frm ∧ t.fflags = s.fflags

/-- The counters other than `instret` are as before: an instruction does not write them. -/
def KeptCounters (s t : State) : Prop := t.cycle = s.cycle ∧ t.time = s.time ∧ t.hpm = s.hpm

/-- Every byte reads as before, may still be fetched as before, and nothing went to a device. -/
def KeptMemory (s t : State) : Prop :=
  (∀ a, readByte t a = readByte s a) ∧ t.stale = s.stale ∧ t.io = s.io

/-- The reservation is as before, and so is the loop the hart may be in. -/
def KeptReservation (s t : State) : Prop := t.reservation = s.reservation ∧ t.watch = s.watch

/-- Configuration, pending trap and the index of the free values are as before. -/
def KeptControl (s t : State) : Prop := t.cfg = s.cfg ∧ t.trap = s.trap ∧ t.draw = s.draw

/-- Everything outside the integer registers, the pc and `instret` is as before. -/
def KeptBeyondX (s t : State) : Prop :=
  KeptF s t ∧ KeptFcsr s t ∧ KeptCounters s t ∧ KeptMemory s t ∧ KeptControl s t ∧ KeptReservation s t

/-- Everything outside the integer and floating-point registers, `fflags`, the pc and `instret` is as before. -/
def KeptBeyondFp (s t : State) : Prop :=
  t.frm = s.frm ∧ KeptCounters s t ∧ KeptMemory s t ∧ KeptControl s t ∧ KeptReservation s t

/-- The floating-point status, the counters, the configuration and the trap are as before. -/
def KeptStatus (s t : State) : Prop := KeptFcsr s t ∧ KeptCounters s t ∧ KeptControl s t

/-! ### How an instruction ends -/

/-- The pc has moved past an instruction of `len` bytes and one more instruction is retired. -/
def Retired (len : Nat) (s t : State) : Prop :=
  t.pc = truncX s.cfg.xlen (curPc s + BitVec.ofNat 64 len) ∧ t.instret = s.instret + 1

/-- The pc is at a target and one more instruction is retired. -/
def Jumped (target : Word) (s t : State) : Prop := t.pc = target ∧ t.instret = s.instret + 1

/-- The state with a trap taken: the record names the exception, the pc of the instruction and the
information; nothing else has changed (60_exceptions.md R945, R958). -/
def trapped (e : Exn) (info : Word) (s : State) : State :=
  { s with trap := some { exn := e, epc := curPc s, info := info } }

/-- What an integer register holds after a write of `v`: nothing is held in `x0` (10_state.md R41). -/
def writtenX (c : Xlen) (rd : RegNum) (v : Word) : Word := if rd = 0 then 0 else truncX c v

/-- A floating-point result has reached its destination and no other register has changed: boxed in the
`f` register; with Zfinx sign-extended in the integer register, or in an even-numbered pair, `x0` taking
nothing (10_state.md R57; 49_zfinx_ztso_other.md R906, R908, R912). -/
def FpWritten (fmt : Fmt) (rd : RegNum) (v : FpBits fmt) (s t : State) : Prop :=
  if s.cfg.ext.zfinx then
    KeptF s t ∧
      if usesPair s.cfg fmt then
        (∀ r, r ≠ rd → r ≠ rd + 1 → readX r t = readX r s) ∧
          if rd = 0 then KeptX s t
          else readX rd t = (v.extractLsb' 0 32).setWidth 64 ∧ readX (rd + 1) t = (v.extractLsb' 32 32).setWidth 64
      else KeptXBut rd s t ∧ readX rd t = writtenX s.cfg.xlen rd (v.signExtend 64)
  else KeptX s t ∧ (∀ r, r ≠ rd → readF r t = readF r s) ∧ readF rd t = box (flen s.cfg) fmt v

/-- Whether a destination can hold a value of a format: wide enough `f` registers, or with Zfinx an
even-numbered register where a pair is needed. -/
def fpHolds (c : Cfg) (fmt : Fmt) (rd : RegNum) : Bool :=
  if c.ext.zfinx then !(usesPair c fmt && rd.getLsbD 0) else decide (fmt.width ≤ flen c)

/-! ### Counters -/

/-- A counter is there and a read of it gives `v`: `cycle`, `time` and `instret` with Zicntr, `hpmcounter3` to
`hpmcounter31` with Zihpm where they count or are constant (10_state.md R51, R61 to R64; decision D12 of the spec). -/
def CounterIs (s : State) (n : BitVec 5) (v : BitVec 64) : Prop :=
  (s.cfg.ext.zicntr = true ∧ (n = 0 ∧ v = s.cycle ∨ n = 1 ∧ v = s.time ∨ n = 2 ∧ v = s.instret)) ∨
  (s.cfg.ext.zihpm = true ∧ ∃ k : Fin 29, n.toNat = k.val + 3 ∧
    (s.cfg.hpm[k] = .counting ∧ v = s.hpm[k] ∨ s.cfg.hpm[k] = .constant v))

/-! ### Memory accesses -/

/-- The place of byte `k` of an access, in memory order, among the digits of its value, least significant
first: `k` itself, or on a big-endian machine `n - 1 - k` (20_memory.md R96). -/
def digitIndex (c : Cfg) (n k : Nat) : Nat := if c.bigEndian then n - 1 - k else k

/-- No exception stands in the way of an access: every byte is in a region that permits it, and the address is
aligned or the region of the first byte supports the misaligned access (60_exceptions.md R953). -/
def accessGranted (c : Cfg) (k : Access) (a : Word) (n : Nat) : Prop :=
  (∀ i, i < n → (regionAt c (byteAddr c a i)).any (regionPermits k) = true) ∧
  ((truncX c.xlen a).toNat % n = 0 ∨
    (regionAt c (truncX c.xlen a).toNat).any (fun r => misalignedPolicy c k r == .supported) = true)

/-- No byte of an access is a device's. -/
def NoDevice (c : Cfg) (a : Word) (n : Nat) : Prop := ∀ k, k < n → isIo c (byteAddr c a k) = false

/-- The `n` bytes at `a` hold the value, in the byte order of the machine (20_memory.md R96). -/
def HoldsBytes {w : Nat} (s : State) (a : Word) (n : Nat) (v : BitVec w) : Prop :=
  ∀ k, k < n → v.extractLsb' (8 * digitIndex s.cfg n k) 8 = readByte s (byteAddr s.cfg a k)

/-- Between `s` and `t` the low `8n` bits of the value were stored at `a`: the bytes of main memory hold them,
and no byte outside the access has changed or may newly be fetched (20_memory.md R96; 40_rv32i_base.md R310). -/
def Stored {w : Nat} (s t : State) (a : Word) (n : Nat) (v : BitVec w) : Prop :=
  (∀ k, k < n → isIo s.cfg (byteAddr s.cfg a k) = false →
    readByte t (byteAddr s.cfg a k) = v.extractLsb' (8 * digitIndex s.cfg n k) 8) ∧
  (∀ b, (∀ k, k < n → b ≠ byteAddr s.cfg a k) → readByte t b = readByte s b) ∧
  (∀ c, c ∈ t.stale → c ∈ s.stale ∨ ∃ k, k < n ∧ c.1 = byteAddr s.cfg a k)

/-- What one memory operation that reads some bytes delivers to the devices: nothing, or one event with each of their
bytes, in order, and the value it answered (20_memory.md R112; the event is the model's, entry 22). -/
def readEvents (s : State) (addrs : List Nat) : List IoEvent :=
  if addrs.filter (isIo s.cfg) = [] then []
  else [.read ((addrs.filter (isIo s.cfg)).map (fun b => (b, readByte s b)))]

/-- What the read of `n` bytes at `a` by one memory operation delivers to the devices. -/
def deviceReads (s : State) (a : Word) (n : Nat) : List IoEvent :=
  readEvents s ((List.range n).map (byteAddr s.cfg a))

/-- The bytes that a store of `n` bytes at `a` gives to some of its offsets, in the byte order of the machine. -/
def storedCells {w : Nat} (c : Cfg) (a : Word) (n : Nat) (v : BitVec w) (part : List Nat) : List Host.Cell :=
  part.map (fun k => (byteAddr c a k, v.extractLsb' (8 * digitIndex c n k) 8))

/-- What one memory operation that stores some bytes delivers to the devices: nothing, or one event with those that are
theirs, in order (20_memory.md R112; the event is the model's, entry 22). -/
def writeEvents (c : Cfg) (cells : List Host.Cell) : List IoEvent :=
  if cells.filter (fun d => isIo c d.1) = [] then [] else [.write (cells.filter (fun d => isIo c d.1))]

/-- What the store of `n` bytes at `a` by one memory operation delivers to the devices. -/
def deviceWrites {w : Nat} (c : Cfg) (a : Word) (n : Nat) (v : BitVec w) : List IoEvent :=
  writeEvents c (storedCells c a n v (List.range n))

/-- Between `s` and `t` no byte changed, and the devices saw the read of their bytes (20_memory.md R112). -/
def OnlyRead (s t : State) (a : Word) (n : Nat) : Prop :=
  (∀ b, readByte t b = readByte s b) ∧ t.stale = s.stale ∧ t.io = deviceReads s a n ++ s.io

/-! ### Accesses of several memory operations -/

/-- An access that is one memory operation: naturally aligned and of at most XLEN bits (20_memory.md R106, R107). -/
def Single (c : Cfg) (a : Word) (n : Nat) : Prop := (truncX c.xlen a).toNat % n = 0 ∧ 8 * n ≤ c.xlen.bits

/-- The memory operations that any other access may be, as the offsets of their bytes in the order they are performed:
pieces that make up the access, in any order; single bytes if it is misaligned (21_memory_model.md R132; 20_memory.md
R107, U46; decision D2 of the spec). -/
def MayBeParts (c : Cfg) (a : Word) (n : Nat) (parts : List (List Nat)) : Prop :=
  parts.flatten.Perm (List.range n) ∧ (∀ p ∈ parts, ∃ k m, 0 < m ∧ p = List.range' k m) ∧
  ((truncX c.xlen a).toNat % n ≠ 0 → ∀ p ∈ parts, p.length = 1)

/-- Memory, what may be fetched, what the devices saw, the reservation and the loop are the same. -/
def SameMemory (s t : State) : Prop :=
  t.mem = s.mem ∧ t.stale = s.stale ∧ t.io = s.io ∧ t.reservation = s.reservation ∧ t.watch = s.watch

/-- From `s` to `t` the parts of an access are read one after another, the environment agent having its turn
(`agentTurn`) before each but the first, and the value has the bytes each found (21_memory_model.md R132; D2, D5; that
the turns are just there is the model's, entry 37). -/
def ReadInParts {w : Nat} (a : Word) (n : Nat) (v : BitVec w) : Nat → List (List Nat) → State → State → Prop
  | _, [], s, t => SameMemory s t
  | turn, part :: rest, s, t =>
    (∀ k ∈ part, v.extractLsb' (8 * digitIndex s.cfg n k) 8 = readByte (turnBefore turn s) (byteAddr s.cfg a k)) ∧
    ReadInParts a n v (turn + 1) rest
      { turnBefore turn s with
        io := readEvents (turnBefore turn s) (part.map (byteAddr s.cfg a)) ++ (turnBefore turn s).io } t

/-- Between `s` and `u` one memory operation stored some bytes of an access: those of main memory hold the bytes of the
value, no other byte has changed or may newly be fetched, the devices were given theirs. -/
def PartStored {w : Nat} (s u : State) (a : Word) (n : Nat) (v : BitVec w) (part : List Nat) : Prop :=
  u.cfg = s.cfg ∧ u.draw = s.draw ∧ KeptReservation s u ∧
  (∀ k ∈ part, isIo s.cfg (byteAddr s.cfg a k) = false →
    readByte u (byteAddr s.cfg a k) = v.extractLsb' (8 * digitIndex s.cfg n k) 8) ∧
  (∀ b, (∀ k ∈ part, b ≠ byteAddr s.cfg a k) → readByte u b = readByte s b) ∧
  (∀ c ∈ u.stale, c ∈ s.stale ∨ ∃ k ∈ part, c.1 = byteAddr s.cfg a k) ∧
  u.io = writeEvents s.cfg (storedCells s.cfg a n v part) ++ s.io

/-- From `s` to `t` the parts of an access are stored one after another, the environment agent having its turn before
each, but before the first only if the number of its turn is not 0 (21_memory_model.md R132; D2, D5; entry 37). -/
def StoredInParts {w : Nat} (a : Word) (n : Nat) (v : BitVec w) : Nat → List (List Nat) → State → State → Prop
  | _, [], s, t => SameMemory s t
  | turn, part :: rest, s, t =>
    ∃ u, PartStored (turnBefore turn s) u a n v part ∧ StoredInParts a n v (turn + 1) rest u t

/-- What a load of `n` bytes at `a` reads and leaves in memory: one memory operation, or the parts it may be; where the
environment agent does not write, the bytes at `a` in either case. -/
def LoadAccess {w : Nat} (s t : State) (a : Word) (n : Nat) (v : BitVec w) : Prop :=
  (Single s.cfg a n → HoldsBytes s a n v ∧ OnlyRead s t a n ∧ KeptReservation s t) ∧
  (¬ Single s.cfg a n → ∃ parts, MayBeParts s.cfg a n parts ∧ ReadInParts a n v 0 parts s t) ∧
  (s.cfg.agentWrites = false →
    HoldsBytes s a n v ∧ (∀ b, readByte t b = readByte s b) ∧ t.stale = s.stale ∧ KeptReservation s t)

/-- What a store of `n` bytes at `a` leaves in memory: one memory operation, or the parts it may be; where the
environment agent does not write, the bytes at `a` in either case. -/
def StoreAccess {w : Nat} (s t : State) (a : Word) (n : Nat) (v : BitVec w) : Prop :=
  (Single s.cfg a n → Stored s t a n v ∧ t.io = deviceWrites s.cfg a n v ++ s.io ∧ KeptReservation s t) ∧
  (¬ Single s.cfg a n → ∃ parts, MayBeParts s.cfg a n parts ∧ StoredInParts a n v 0 parts s t) ∧
  (s.cfg.agentWrites = false → Stored s t a n v ∧ KeptReservation s t)

/-- What an AMO of `n` bytes at `a` reads and leaves in memory: indivisible, or the parts that the two halves of a
misaligned one may be, the environment agent having its turn between the halves too (44_a_zam.md R495; 20_memory.md R108;
entry 8). -/
def AmoAccess {w : Nat} (s t : State) (a : Word) (n : Nat) (v new : BitVec w) : Prop :=
  (Single s.cfg a n → HoldsBytes s a n v ∧ Stored s t a n new ∧
    t.io = deviceWrites s.cfg a n new ++ deviceReads s a n ++ s.io ∧ KeptReservation s t) ∧
  (¬ Single s.cfg a n → ∃ (u : State) (reads writes : List (List Nat)), MayBeParts s.cfg a n reads ∧
    MayBeParts s.cfg a n writes ∧ u.cfg = s.cfg ∧ u.draw = s.draw ∧ ReadInParts a n v 0 reads s u ∧
    StoredInParts a n new n writes u t) ∧
  (s.cfg.agentWrites = false → HoldsBytes s a n v ∧ Stored s t a n new ∧ KeptReservation s t)

/-! ### Reservations and the environment agent -/

/-- A reservation is held whose set has every byte of the access (44_a_zam.md R465). -/
def Reserved (s : State) (a : Word) (n : Nat) : Prop :=
  ∃ r, s.reservation = some r ∧ ∀ k, k < n → inReservation r (byteAddr s.cfg a k) = true

/-- What may still be fetched after some stores: what could be before, the value that a changed byte had before, and
nothing else but values that the stores gave bytes in between (20_memory.md R120, D16). -/
def StaleAfter (s t : State) (between : Host.Cell → Prop) : Prop :=
  (∀ c ∈ s.stale, c ∈ t.stale) ∧
  (∀ a, isIo s.cfg a = false → readByte t a ≠ readByte s a → (a, readByte s a) ∈ t.stale) ∧
  (∀ c ∈ t.stale, c ∈ s.stale ∨ c.2 = readByte s c.1 ∨ between c)

/-- The value of a byte after some writes, in order. -/
def lastWritten (writes : List Host.Cell) (a : Nat) (old : Byte) : Byte :=
  writes.foldl (fun v c => if c.1 = a then c.2 else v) old

/-- What writes of the environment agent in one of its turns do to memory and to the reservation: each byte of main
memory holds the last value written to it; a reservation is gone if a byte its LR accessed is written, kept if none of
its set is, and otherwise kept or gone by a free value (44_a_zam.md R465, D5). -/
def AgentWrote (turn : Nat) (writes : List Host.Cell) (s t : State) : Prop :=
  (∀ a, isIo s.cfg a = false → readByte t a = lastWritten writes a (readByte s a)) ∧
  StaleAfter s t (fun c => c ∈ writes) ∧ (∀ c, c ∈ t.stale → c ∈ s.stale ∨ c.1 ∈ writes.map Prod.fst) ∧ t.io = s.io ∧
  (s.reservation = none → t.reservation = none) ∧
  (∀ r, s.reservation = some r →
    ((∃ c ∈ writes, r.lrAddr ≤ c.1 ∧ c.1 < r.lrAddr + r.lrLen) → t.reservation = none) ∧
    ((∀ c ∈ writes, inReservation r c.1 = false ∧ ¬ (r.lrAddr ≤ c.1 ∧ c.1 < r.lrAddr + r.lrLen)) →
      t.reservation = some r) ∧
    ((∀ c ∈ writes, ¬ (r.lrAddr ≤ c.1 ∧ c.1 < r.lrAddr + r.lrLen)) →
      (∃ c ∈ writes, inReservation r c.1 = true) →
      t.reservation = if Config.envBreaksReservation s.draw turn then none else some r))

/-- What writes of the environment agent do to the promise to a constrained loop: it ends if a byte of the reservation
set of the loop's latest LR is written, whether or not a reservation is held, and stands otherwise (44_a_zam.md R467). -/
def LoopAfterWrites (writes : List Host.Cell) (s t : State) : Prop :=
  (s.watch = none → t.watch = none) ∧
  ∀ w, s.watch = some w →
    ((∃ c ∈ writes, inReservation (loopReservation s.cfg w) c.1 = true) → t.watch = none) ∧
    ((∀ c ∈ writes, inReservation (loopReservation s.cfg w) c.1 = false) → t.watch = some w)

/-- What a turn of the environment agent leaves: nothing but memory, what may be fetched, the reservation and the loop
change, and these by its writes, addresses modulo 2^XLEN, where the platform lets it write (20_memory.md R90, R126;
decision D5 of the spec; entry 37). -/
def AgentTurn (turn : Nat) (s t : State) : Prop :=
  KeptX s t ∧ KeptF s t ∧ KeptStatus s t ∧ t.pc = s.pc ∧ t.instret = s.instret ∧
  (s.cfg.agentWrites = false → SameMemory s t) ∧
  (s.cfg.agentWrites = true →
    AgentWrote turn ((Config.agentWrites s.draw turn).map (fun c => (c.1 % 2 ^ s.cfg.xlen.bits, c.2))) s t ∧
    LoopAfterWrites ((Config.agentWrites s.draw turn).map (fun c => (c.1 % 2 ^ s.cfg.xlen.bits, c.2))) s t)

/-! ### Numbers and rounding -/

/-- The real number `(-1)^neg * m * 2^e` (46_f.md R575; 47_d.md R661). -/
noncomputable def numReal (neg : Bool) (m : Nat) (e : Int) : ℝ := (if neg then -1 else 1) * (m : ℝ) * (2 : ℝ) ^ e

/-- A pattern of a format stands for the number `x` (47_d.md R661). -/
def IsNumber (t : Fmt) (v : FpBits t) (x : ℝ) : Prop :=
  ∃ neg m e, fpUnpack t v = .num neg m e ∧ x = numReal neg m e

/-- A pattern of a format stands for zero. -/
def IsZero (t : Fmt) (v : FpBits t) : Prop := IsNumber t v 0

/-- A pattern of a format stands for an infinity. -/
def IsInf (t : Fmt) (v : FpBits t) : Prop := ∃ neg, fpUnpack t v = .inf neg

/-- A product of an infinity and a zero: an invalid operation (46_f.md R577). -/
def InvalidProduct (t : Fmt) (a b : FpBits t) : Prop := (IsInf t a ∧ IsZero t b) ∨ (IsZero t a ∧ IsInf t b)

/-- A product of an infinity and an infinity or a number that is not zero (46_f.md R576). -/
def InfiniteProduct (t : Fmt) (a b : FpBits t) : Prop :=
  (IsInf t a ∧ IsInf t b) ∨ (∃ x, x ≠ 0 ∧ (IsInf t a ∧ IsNumber t b x ∨ IsNumber t a x ∧ IsInf t b))

/-- The numbers of a format. -/
def Representable (t : Fmt) (y : ℝ) : Prop := ∃ v, IsNumber t v y

/-- The numbers of a format whose last significand bit is 0. -/
def EvenInFormat (t : Fmt) (y : ℝ) : Prop := ∃ v, IsNumber t v y ∧ fpMagnitude t v % 2 = 0

/-- The numbers of `p` significant bits, the exponent unbounded (46_f.md R576). -/
def OfPrecision (p : Nat) (y : ℝ) : Prop := ∃ (n : Nat) (k : Int), n < 2 ^ p ∧ |y| = (n : ℝ) * (2 : ℝ) ^ k

/-- Those whose last significand bit is 0. -/
def EvenOfPrecision (p : Nat) (y : ℝ) : Prop :=
  ∃ (n : Nat) (k : Int), 2 ^ (p - 1) ≤ n ∧ n < 2 ^ p ∧ n % 2 = 0 ∧ |y| = (n : ℝ) * (2 : ℝ) ^ k

/-- `y` is `x` rounded to one of a set of numbers: towards zero, down or up; or to the nearest, a tie to the even one
or to the one of greater magnitude (10_state.md R54; 46_f.md R576). -/
def RoundsTo (numbers even : ℝ → Prop) (rm : Rm) (x y : ℝ) : Prop :=
  numbers y ∧
  match rm with
  | .rtz => 0 ≤ x * y ∧ |y| ≤ |x| ∧ ∀ w, numbers w → 0 ≤ x * w → |w| ≤ |x| → |w| ≤ |y|
  | .rdn => y ≤ x ∧ ∀ w, numbers w → w ≤ x → w ≤ y
  | .rup => x ≤ y ∧ ∀ w, numbers w → x ≤ w → y ≤ w
  | .rne => ∀ w, numbers w → w = y ∨ |x - y| < |x - w| ∨ (|x - y| = |x - w| ∧ even y)
  | .rmm => ∀ w, numbers w → w = y ∨ |x - y| < |x - w| ∨ (|x - y| = |x - w| ∧ |w| < |y|)

/-- The largest number of a format (46_f.md R575; 47_d.md R661). -/
noncomputable def largestNumber (t : Fmt) : ℝ := ((2 : ℝ) ^ fmtPrecision t - 1) * (2 : ℝ) ^ (fmtEmax t - t.fracBits)

/-- A result of an overflow: by the mode and the sign an infinity or the largest number, OF and NX (46_f.md R576). -/
def Overflowed (t : Fmt) (rm : Rm) (neg : Bool) (r : FpRes t) : Prop :=
  r.2 = flagOF ||| flagNX ∧
  match rm, neg with
  | .rne, _ | .rmm, _ | .rdn, true | .rup, false => fpUnpack t r.1 = .inf neg
  | .rtz, _ | .rdn, false | .rup, true => IsNumber t r.1 ((if neg then -1 else 1) * largestNumber t)

/-- `r` is the number `x`, not zero, rounded once to a format (46_f.md R576, R577, R579; 47_d.md R662): `y` is `x`
rounded to the format's precision with unbounded exponent; the result overflows if `y` is beyond the largest number;
else it is `x` rounded to a number of the format, with the sign of `x`, NX if it is not `x`, and then UF if `y` is
below the normal range. -/
def RoundedOnce (t : Fmt) (rm : Rm) (x : ℝ) (r : FpRes t) : Prop :=
  ∃ y, RoundsTo (OfPrecision (fmtPrecision t)) (EvenOfPrecision (fmtPrecision t)) rm x y ∧
    (largestNumber t < |y| → Overflowed t rm (decide (x < 0)) r) ∧
    (|y| ≤ largestNumber t → ∃ z, IsNumber t r.1 z ∧ RoundsTo (Representable t) (EvenInFormat t) rm x z ∧
      fpSign t r.1 = decide (x < 0) ∧
      (z = x → r.2 = flagsNone) ∧
      (z ≠ x → |y| < (2 : ℝ) ^ fmtEmin t → r.2 = flagNX ||| flagUF) ∧
      (z ≠ x → (2 : ℝ) ^ fmtEmin t ≤ |y| → r.2 = flagNX))

/-- The place of a pattern that is no NaN in the order of the numbers and the infinities; 0 for a NaN. -/
noncomputable def fpOrder (t : Fmt) (v : FpBits t) : EReal :=
  match fpUnpack t v with
  | .nan _ => 0
  | .inf neg => if neg then ⊥ else ⊤
  | .num neg m e => ((numReal neg m e : ℝ) : EReal)

/-! ### Launch and the invariant of a run -/

/-- What the spec asks of the launch parameters (70_reset_and_hazards.md R990, D6): values of their types, memory in
the canonical form, an aligned entry point that may be fetched from. -/
structure Launch.Admitted (c : Cfg) (l : Launch) : Prop where
  entryInside : l.entry.toNat < 2 ^ c.xlen.bits
  entryAligned : l.entry.toNat % ialignBytes c = 0
  entryFetched : fetchPermitted c l.entry.toNat = true
  memCanonical : Memory.wf l.mem = true
  memInside : ∀ d ∈ l.mem, d.1 < 2 ^ c.xlen.bits
  xInside : ∀ r : Fin 32, (l.x[r]).toNat < 2 ^ c.xlen.bits
  fInside : ∀ r : Fin 32, (l.f[r]).toNat < 2 ^ flen c

/-- What every step keeps: memory canonical and inside the address space; the pc an aligned XLEN-bit
address; registers within their widths; a reservation set that has what its LR accessed; a constrained loop entered
before this step whose SC has failed no more often than promised; a pending trap recorded at the pc. -/
structure State.Inv (s : State) : Prop where
  memCanonical : Memory.wf s.mem = true
  memInside : ∀ c ∈ s.mem, c.1 < 2 ^ s.cfg.xlen.bits
  pcInside : s.pc.toNat < 2 ^ s.cfg.xlen.bits
  pcAligned : s.pc.toNat % ialignBytes s.cfg = 0
  xInside : ∀ r : Fin 32, (s.x[r]).toNat < 2 ^ s.cfg.xlen.bits
  fInside : ∀ r : Fin 32, (s.f[r]).toNat < 2 ^ flen s.cfg
  reservationCovers : ∀ r, s.reservation = some r →
    ∀ a, r.lrAddr ≤ a → a < r.lrAddr + r.lrLen → inReservation r a = true
  loopBounded : ∀ w, s.watch = some w → w.since ≤ s.draw ∧ w.failures ≤ Config.scPatience w.since + 1
  trapAtPc : ∀ r, s.trap = some r → r.epc = s.pc

end Sys2Proof.Machine
end

