-- ==== Sys2Proof/Certificates/Slice0/Obligations.lean ====
section
/-! DEFINITION. The statements for the provers, in the terms of Sys2Proof/Safety.lean. A statement about several
instructions lists them, each with what the spec gives it. -/

section Statements

open Sys2Proof Sys2Proof.Machine

/-! ### Integer instructions -/

/-- The register-register instructions (40_rv32i_base.md R275 to R284): the operation at width XLEN in `rd`,
nothing in `x0`; every other register and all other state kept. -/
def Obligations.RegisterRegisterResult : Prop :=
  ∀ (s : State) (rd rs1 rs2 : RegNum) (i : Instr) (op : AluOp),
    (i, op) ∈ ([
      (.add rd rs1 rs2, fun _ a b => a + b),
      (.sub rd rs1 rs2, fun _ a b => a - b),
      (.sll rd rs1 rs2, fun w a b => a <<< (b.toNat % w)),
      (.slt rd rs1 rs2, fun w a b => if a.slt b then 1#w else 0#w),
      (.sltu rd rs1 rs2, fun w a b => if a.ult b then 1#w else 0#w),
      (.xor rd rs1 rs2, fun _ a b => a ^^^ b),
      (.srl rd rs1 rs2, fun w a b => a >>> (b.toNat % w)),
      (.sra rd rs1 rs2, fun w a b => a.sshiftRight (b.toNat % w)),
      (.or rd rs1 rs2, fun _ a b => a ||| b),
      (.and rd rs1 rs2, fun _ a b => a &&& b)] : List (Instr × AluOp)) →
    ∃ t, exec i s = .next t ∧ Retired 4 s t ∧
      readX rd t = writtenX s.cfg.xlen rd (aluAtXlen s.cfg.xlen op (readX rs1 s) (readX rs2 s)) ∧
      KeptXBut rd s t ∧ KeptBeyondX s t

/-- The register-immediate instructions (40_rv32i_base.md R264 to R272; 41_rv64i_rv32e_rv128i.md R343): the
immediate sign-extended, a shift amount as it is. -/
def Obligations.RegisterImmediateResult : Prop :=
  ∀ (s : State) (rd rs1 : RegNum) (imm : BitVec 12) (shamt : BitVec 6) (i : Instr) (op : AluOp) (b : Word),
    (i, op, b) ∈ ([
      (.addi rd rs1 imm, fun _ a b => a + b, imm.signExtend 64),
      (.slti rd rs1 imm, fun w a b => if a.slt b then 1#w else 0#w, imm.signExtend 64),
      (.sltiu rd rs1 imm, fun w a b => if a.ult b then 1#w else 0#w, imm.signExtend 64),
      (.xori rd rs1 imm, fun _ a b => a ^^^ b, imm.signExtend 64),
      (.ori rd rs1 imm, fun _ a b => a ||| b, imm.signExtend 64),
      (.andi rd rs1 imm, fun _ a b => a &&& b, imm.signExtend 64),
      (.slli rd rs1 shamt, fun w a b => a <<< (b.toNat % w), shamt.setWidth 64),
      (.srli rd rs1 shamt, fun w a b => a >>> (b.toNat % w), shamt.setWidth 64),
      (.srai rd rs1 shamt, fun w a b => a.sshiftRight (b.toNat % w), shamt.setWidth 64)] :
        List (Instr × AluOp × Word)) →
    ∃ t, exec i s = .next t ∧ Retired 4 s t ∧
      readX rd t = writtenX s.cfg.xlen rd (aluAtXlen s.cfg.xlen op (readX rs1 s) b) ∧
      KeptXBut rd s t ∧ KeptBeyondX s t

/-- LUI and AUIPC (40_rv32i_base.md R273, R274): the 20-bit immediate shifted left by 12 and sign-extended,
and that added to the pc of the instruction. -/
def Obligations.UpperImmediateResult : Prop :=
  ∀ (s : State) (rd : RegNum) (imm : BitVec 20) (i : Instr) (v : Word),
    (i, v) ∈ ([
      (.lui rd imm, imm.signExtend 64 <<< 12),
      (.auipc rd imm, curPc s + imm.signExtend 64 <<< 12)] : List (Instr × Word)) →
    ∃ t, exec i s = .next t ∧ Retired 4 s t ∧ readX rd t = writtenX s.cfg.xlen rd v ∧
      KeptXBut rd s t ∧ KeptBeyondX s t

/-- The "W" instructions of RV64 (41_rv64i_rv32e_rv128i.md R341 to R346, R350 to R354): the operation on the low
32 bits, the 32-bit result sign-extended to 64. -/
def Obligations.WordResult : Prop :=
  ∀ (s : State) (rd rs1 rs2 : RegNum) (imm : BitVec 12) (shamt : BitVec 5) (i : Instr)
    (op : BitVec 32 → BitVec 32 → BitVec 32) (b : Word),
    s.cfg.xlen = .rv64 →
    (i, op, b) ∈ ([
      (.addiw rd rs1 imm, fun a b => a + b, imm.signExtend 64),
      (.slliw rd rs1 shamt, fun a b => a <<< b.toNat, shamt.setWidth 64),
      (.srliw rd rs1 shamt, fun a b => a >>> b.toNat, shamt.setWidth 64),
      (.sraiw rd rs1 shamt, fun a b => a.sshiftRight b.toNat, shamt.setWidth 64),
      (.addw rd rs1 rs2, fun a b => a + b, readX rs2 s),
      (.subw rd rs1 rs2, fun a b => a - b, readX rs2 s),
      (.sllw rd rs1 rs2, fun a b => a <<< (b.toNat % 32), readX rs2 s),
      (.srlw rd rs1 rs2, fun a b => a >>> (b.toNat % 32), readX rs2 s),
      (.sraw rd rs1 rs2, fun a b => a.sshiftRight (b.toNat % 32), readX rs2 s)] :
        List (Instr × (BitVec 32 → BitVec 32 → BitVec 32) × Word)) →
    ∃ t, exec i s = .next t ∧ Retired 4 s t ∧
      readX rd t = (if rd = 0 then 0 else (op ((readX rs1 s).setWidth 32) (b.setWidth 32)).signExtend 64) ∧
      KeptXBut rd s t ∧ KeptBeyondX s t

/-! ### Multiplication and division -/

/-- The multiplications (43_m_zmmul.md R431 to R434): the low or the high XLEN bits of the 2·XLEN-bit product of
the operands, each extended by its own signedness; and the divisions (R440 to R443): rounding towards zero, the
remainder with the dividend's sign, the values of R445 for a zero divisor. -/
def Obligations.MultiplyDivideResult : Prop :=
  ∀ (s : State) (rd rs1 rs2 : RegNum) (i : Instr) (op : AluOp),
    (i, op) ∈ ([
      (.mul rd rs1 rs2, fun w a b => (a.signExtend (2 * w) * b.signExtend (2 * w)).extractLsb' 0 w),
      (.mulh rd rs1 rs2, fun w a b => (a.signExtend (2 * w) * b.signExtend (2 * w)).extractLsb' w w),
      (.mulhsu rd rs1 rs2, fun w a b => (a.signExtend (2 * w) * b.setWidth (2 * w)).extractLsb' w w),
      (.mulhu rd rs1 rs2, fun w a b => (a.setWidth (2 * w) * b.setWidth (2 * w)).extractLsb' w w),
      (.div rd rs1 rs2, fun w a b => if b = 0#w then BitVec.allOnes w else a.sdiv b),
      (.divu rd rs1 rs2, fun w a b => if b = 0#w then BitVec.allOnes w else a / b),
      (.rem rd rs1 rs2, fun w a b => if b = 0#w then a else a.srem b),
      (.remu rd rs1 rs2, fun w a b => if b = 0#w then a else a % b)] : List (Instr × AluOp)) →
    ∃ t, exec i s = .next t ∧ Retired 4 s t ∧
      readX rd t = writtenX s.cfg.xlen rd (aluAtXlen s.cfg.xlen op (readX rs1 s) (readX rs2 s)) ∧
      KeptXBut rd s t ∧ KeptBeyondX s t

/-- MULW and the divisions of 32-bit words on RV64 (43_m_zmmul.md R435, R444): the 32-bit result of the low words
sign-extended to 64, including on a division by zero. -/
def Obligations.WordMultiplyDivideResult : Prop :=
  ∀ (s : State) (rd rs1 rs2 : RegNum) (i : Instr) (op : BitVec 32 → BitVec 32 → BitVec 32),
    s.cfg.xlen = .rv64 →
    (i, op) ∈ ([
      (.mulw rd rs1 rs2, fun a b => a * b),
      (.divw rd rs1 rs2, fun a b => if b = 0#32 then BitVec.allOnes 32 else a.sdiv b),
      (.divuw rd rs1 rs2, fun a b => if b = 0#32 then BitVec.allOnes 32 else a / b),
      (.remw rd rs1 rs2, fun a b => if b = 0#32 then a else a.srem b),
      (.remuw rd rs1 rs2, fun a b => if b = 0#32 then a else a % b)] :
        List (Instr × (BitVec 32 → BitVec 32 → BitVec 32))) →
    ∃ t, exec i s = .next t ∧ Retired 4 s t ∧
      readX rd t =
        (if rd = 0 then 0 else (op ((readX rs1 s).setWidth 32) ((readX rs2 s).setWidth 32)).signExtend 64) ∧
      KeptXBut rd s t ∧ KeptBeyondX s t

/-- The table of 43_m_zmmul.md R445, row by row, for the operations at width XLEN and, on RV64, those of 32 bits:
no exception is raised; with a divisor other than zero the unsigned quotient and remainder are the exact ones, and
so are the signed ones outside the overflow row. -/
def Obligations.DivisionCorners : Prop :=
  ∀ (s : State) (rd rs1 rs2 : RegNum) (i : Instr) (v : Word),
    ((readX rs2 s = 0 ∧
        (i, v) ∈ ([
          (.divu rd rs1 rs2, BitVec.allOnes 64), (.div rd rs1 rs2, BitVec.allOnes 64),
          (.remu rd rs1 rs2, readX rs1 s), (.rem rd rs1 rs2, readX rs1 s)] : List (Instr × Word))) ∨
      ((readX rs1 s).toNat = 2 ^ (s.cfg.xlen.bits - 1) ∧ (readX rs2 s).toNat = 2 ^ s.cfg.xlen.bits - 1 ∧
        (i, v) ∈ ([(.div rd rs1 rs2, readX rs1 s), (.rem rd rs1 rs2, 0)] : List (Instr × Word))) ∨
      (s.cfg.xlen = .rv64 ∧ (readX rs2 s).setWidth 32 = 0#32 ∧
        (i, v) ∈ ([
          (.divuw rd rs1 rs2, BitVec.allOnes 64), (.divw rd rs1 rs2, BitVec.allOnes 64),
          (.remuw rd rs1 rs2, ((readX rs1 s).setWidth 32).signExtend 64),
          (.remw rd rs1 rs2, ((readX rs1 s).setWidth 32).signExtend 64)] : List (Instr × Word))) ∨
      (s.cfg.xlen = .rv64 ∧ ((readX rs1 s).setWidth 32).toNat = 2 ^ 31 ∧
        (readX rs2 s).setWidth 32 = BitVec.allOnes 32 ∧
        (i, v) ∈ ([
          (.divw rd rs1 rs2, ((readX rs1 s).setWidth 32).signExtend 64),
          (.remw rd rs1 rs2, 0)] : List (Instr × Word)))) →
    (∃ t, exec i s = .next t ∧ t.trap = s.trap ∧ readX rd t = writtenX s.cfg.xlen rd v) ∧
    ∀ (w : Nat) (a b : BitVec w), (w = 32 ∨ w = 64) → b ≠ 0#w →
      ((aluDivu w a b).toNat = a.toNat / b.toNat ∧ (aluRemu w a b).toNat = a.toNat % b.toNat) ∧
      (¬ (a.toInt = -(2 ^ (w - 1)) ∧ b.toInt = -1) →
        (aluDiv w a b).toInt = a.toInt.tdiv b.toInt ∧ (aluRem w a b).toInt = a.toInt.tmod b.toInt)

/-! ### Control transfer -/

/-- The jumps (40_rv32i_base.md R291, R292, R300; 48_c.md R830 to R833): the target, and the address of the next
instruction in the link register; a target that is not IALIGN-aligned traps on the jump and links nothing. -/
def Obligations.JumpResult : Prop :=
  ∀ (s : State) (rd rs1 : RegNum) (imm : BitVec 20) (off : BitVec 12) (coff : BitVec 11)
    (i : Instr) (len : Nat) (link : RegNum) (target : Word),
    (i, len, link, target) ∈ ([
      (.jal rd imm, 4, rd, curPc s + imm.signExtend 64 <<< 1),
      (.jalr rd rs1 off, 4, rd, (readX rs1 s + off.signExtend 64) &&& ~~~1#64),
      (.cJ coff, 2, 0, curPc s + coff.signExtend 64 <<< 1),
      (.cJal coff, 2, 1, curPc s + coff.signExtend 64 <<< 1),
      (.cJr rs1, 2, 0, readX rs1 s &&& ~~~1#64),
      (.cJalr rs1, 2, 1, readX rs1 s &&& ~~~1#64)] : List (Instr × Nat × RegNum × Word)) →
    ((truncX s.cfg.xlen target).toNat % ialignBytes s.cfg = 0 →
      ∃ t, exec i s = .next t ∧ Jumped (truncX s.cfg.xlen target) s t ∧
        readX link t = writtenX s.cfg.xlen link (curPc s + BitVec.ofNat 64 len) ∧
        KeptXBut link s t ∧ KeptBeyondX s t) ∧
    ((truncX s.cfg.xlen target).toNat % ialignBytes s.cfg ≠ 0 →
      exec i s = .next (trapped .instrAddrMisaligned (truncX s.cfg.xlen target) s))

/-- The conditional branches (40_rv32i_base.md R293 to R300; 48_c.md R834, R835): not taken, the next instruction;
taken, the target, or a trap on the branch if the target is not IALIGN-aligned; no register is written. -/
def Obligations.BranchResult : Prop :=
  ∀ (s : State) (rs1 rs2 : RegNum) (crs1 : CRegNum) (imm : BitVec 12) (off : BitVec 8)
    (i : Instr) (len : Nat) (taken : Bool) (target : Word),
    (i, len, taken, target) ∈ ([
      (.beq rs1 rs2 imm, 4, readX rs1 s == readX rs2 s, curPc s + imm.signExtend 64 <<< 1),
      (.bne rs1 rs2 imm, 4, readX rs1 s != readX rs2 s, curPc s + imm.signExtend 64 <<< 1),
      (.blt rs1 rs2 imm, 4, cmpAtXlen s.cfg.xlen (fun _ a b => a.slt b) (readX rs1 s) (readX rs2 s),
        curPc s + imm.signExtend 64 <<< 1),
      (.bge rs1 rs2 imm, 4, !cmpAtXlen s.cfg.xlen (fun _ a b => a.slt b) (readX rs1 s) (readX rs2 s),
        curPc s + imm.signExtend 64 <<< 1),
      (.bltu rs1 rs2 imm, 4, (readX rs1 s).ult (readX rs2 s), curPc s + imm.signExtend 64 <<< 1),
      (.bgeu rs1 rs2 imm, 4, !(readX rs1 s).ult (readX rs2 s), curPc s + imm.signExtend 64 <<< 1),
      (.cBeqz crs1 off, 2, readX (cReg crs1) s == 0, curPc s + off.signExtend 64 <<< 1),
      (.cBnez crs1 off, 2, readX (cReg crs1) s != 0, curPc s + off.signExtend 64 <<< 1)] :
        List (Instr × Nat × Bool × Word)) →
    (taken = false → ∃ t, exec i s = .next t ∧ Retired len s t ∧ KeptX s t ∧ KeptBeyondX s t) ∧
    (taken = true → (truncX s.cfg.xlen target).toNat % ialignBytes s.cfg = 0 →
      ∃ t, exec i s = .next t ∧ Jumped (truncX s.cfg.xlen target) s t ∧ KeptX s t ∧ KeptBeyondX s t) ∧
    (taken = true → (truncX s.cfg.xlen target).toNat % ialignBytes s.cfg ≠ 0 →
      exec i s = .next (trapped .instrAddrMisaligned (truncX s.cfg.xlen target) s))

/-- With IALIGN = 16 no instruction at an even pc raises instruction-address-misaligned (40_rv32i_base.md R300). -/
def Obligations.NoMisalignedTargetWithC : Prop :=
  ∀ (i : Instr) (s t : State) (r : TrapRecord),
    s.cfg.ext.c = true → (curPc s).toNat % 2 = 0 → s.trap = none →
    exec i s = .next t → t.trap = some r → r.exn ≠ .instrAddrMisaligned

/-! ### Loads and stores -/

/-- The integer loads (40_rv32i_base.md R305 to R310; 41_rv64i_rv32e_rv128i.md R356, R357; 48_c.md R810, R811, R818,
R819): the value the bytes at the effective address hold, extended to XLEN, and
the read of those that are a device's delivered to it (20_memory.md R112; the event is the model's, entry 22); or the
access's exception. A misaligned load that completes is single-byte memory operations in an order left open
(21_memory_model.md R132; D2), between which the environment agent has its turn (entry 37). -/
def Obligations.IntegerLoadResult : Prop :=
  ∀ (s : State) (rd rs1 : RegNum) (imm : BitVec 12) (crd crs1 : CRegNum) (u5 : BitVec 5) (u6 : BitVec 6)
    (i : Instr) (len n : Nat) (e : LoadExt) (d base : RegNum) (off : Word),
    (i, len, n, e, d, base, off) ∈ ([
      (.lb rd rs1 imm, 4, 1, .signed, rd, rs1, imm.signExtend 64),
      (.lh rd rs1 imm, 4, 2, .signed, rd, rs1, imm.signExtend 64),
      (.lw rd rs1 imm, 4, 4, .signed, rd, rs1, imm.signExtend 64),
      (.ld rd rs1 imm, 4, 8, .signed, rd, rs1, imm.signExtend 64),
      (.lbu rd rs1 imm, 4, 1, .unsigned, rd, rs1, imm.signExtend 64),
      (.lhu rd rs1 imm, 4, 2, .unsigned, rd, rs1, imm.signExtend 64),
      (.lwu rd rs1 imm, 4, 4, .unsigned, rd, rs1, imm.signExtend 64),
      (.cLw crd crs1 u5, 2, 4, .signed, cReg crd, cReg crs1, BitVec.ofNat 64 (4 * u5.toNat)),
      (.cLd crd crs1 u5, 2, 8, .signed, cReg crd, cReg crs1, BitVec.ofNat 64 (8 * u5.toNat)),
      (.cLwsp rd u6, 2, 4, .signed, rd, 2, BitVec.ofNat 64 (4 * u6.toNat)),
      (.cLdsp rd u6, 2, 8, .signed, rd, 2, BitVec.ofNat 64 (8 * u6.toNat))] :
        List (Instr × Nat × Nat × LoadExt × RegNum × RegNum × Word)) →
    (accessGranted s.cfg .load (effAddr base off s) n →
      ∃ t, ∃ v : BitVec (8 * n), exec i s = .next t ∧ LoadAccess s t (effAddr base off s) n v ∧ Retired len s t ∧
        readX d t = writtenX s.cfg.xlen d (match e with
          | .signed => v.signExtend 64
          | .unsigned => v.setWidth 64) ∧
        KeptXBut d s t ∧ KeptF s t ∧ KeptStatus s t) ∧
    (∀ x, accessCheck s.cfg .load (effAddr base off s) n = some x →
      exec i s = .next (trapped x (effAddr base off s) s))

/-- The integer stores (40_rv32i_base.md R310 to R313; 41_rv64i_rv32e_rv128i.md R358; 48_c.md R814, R815, R822, R823):
the low bytes of `x[rs2]` at the effective address, no other byte, those that are a device's delivered to it (20_memory.md
R112; the event is the model's, entry 22); or the access's exception. A misaligned store that completes is single-byte
memory operations in an order left open (21_memory_model.md R132; D2), between which the environment agent has its turn
(entry 37). That a store of the hart keeps its reservation is the decision D10 of the spec (entry 16). -/
def Obligations.IntegerStoreResult : Prop :=
  ∀ (s : State) (rs2 rs1 : RegNum) (imm : BitVec 12) (crs2 crs1 : CRegNum) (u5 : BitVec 5) (u6 : BitVec 6)
    (i : Instr) (len n : Nat) (src base : RegNum) (off : Word),
    (i, len, n, src, base, off) ∈ ([
      (.sb rs2 rs1 imm, 4, 1, rs2, rs1, imm.signExtend 64),
      (.sh rs2 rs1 imm, 4, 2, rs2, rs1, imm.signExtend 64),
      (.sw rs2 rs1 imm, 4, 4, rs2, rs1, imm.signExtend 64),
      (.sd rs2 rs1 imm, 4, 8, rs2, rs1, imm.signExtend 64),
      (.cSw crs2 crs1 u5, 2, 4, cReg crs2, cReg crs1, BitVec.ofNat 64 (4 * u5.toNat)),
      (.cSd crs2 crs1 u5, 2, 8, cReg crs2, cReg crs1, BitVec.ofNat 64 (8 * u5.toNat)),
      (.cSwsp rs2 u6, 2, 4, rs2, 2, BitVec.ofNat 64 (4 * u6.toNat)),
      (.cSdsp rs2 u6, 2, 8, rs2, 2, BitVec.ofNat 64 (8 * u6.toNat))] :
        List (Instr × Nat × Nat × RegNum × RegNum × Word)) →
    (accessGranted s.cfg .store (effAddr base off s) n →
      ∃ t, exec i s = .next t ∧ Retired len s t ∧ StoreAccess s t (effAddr base off s) n (readX src s) ∧
        KeptX s t ∧ KeptF s t ∧ KeptStatus s t) ∧
    (∀ x, accessCheck s.cfg .store (effAddr base off s) n = some x →
      exec i s = .next (trapped x (effAddr base off s) s))

/-- The floating-point loads (46_f.md R580, R581; 47_d.md R670; 47_q.md R710; 47_zfh_zfhmin.md R750; 48_c.md R812,
R813, R820, R821): the bytes at the effective address, boxed, not modified, and the read of those that are a device's
delivered to it (20_memory.md R112; the event is the model's, entry 22); or the access's exception. A misaligned load is
single-byte memory operations, an aligned one wider than XLEN pieces of sizes left open, in an order left open (20_memory.md
R107; 21_memory_model.md R132; D2), between which the environment agent has its turn (entry 37). -/
def Obligations.FloatLoadResult : Prop :=
  ∀ (s : State) (rd rs1 : RegNum) (imm : BitVec 12) (crd crs1 : CRegNum) (u5 : BitVec 5) (u6 : BitVec 6)
    (i : Instr) (len : Nat) (fmt : Fmt) (d base : RegNum) (off : Word),
    fmt.width ≤ flen s.cfg →
    (i, len, fmt, d, base, off) ∈ ([
      (.flh rd rs1 imm, 4, .h, rd, rs1, imm.signExtend 64),
      (.flw rd rs1 imm, 4, .s, rd, rs1, imm.signExtend 64),
      (.fld rd rs1 imm, 4, .d, rd, rs1, imm.signExtend 64),
      (.flq rd rs1 imm, 4, .q, rd, rs1, imm.signExtend 64),
      (.cFlw crd crs1 u5, 2, .s, cReg crd, cReg crs1, BitVec.ofNat 64 (4 * u5.toNat)),
      (.cFld crd crs1 u5, 2, .d, cReg crd, cReg crs1, BitVec.ofNat 64 (8 * u5.toNat)),
      (.cFlwsp rd u6, 2, .s, rd, 2, BitVec.ofNat 64 (4 * u6.toNat)),
      (.cFldsp rd u6, 2, .d, rd, 2, BitVec.ofNat 64 (8 * u6.toNat))] :
        List (Instr × Nat × Fmt × RegNum × RegNum × Word)) →
    (accessGranted s.cfg .load (effAddr base off s) (fmt.width / 8) →
      ∃ t, ∃ v : FpBits fmt, exec i s = .next t ∧ LoadAccess s t (effAddr base off s) (fmt.width / 8) v ∧
        Retired len s t ∧ readF d t = box (flen s.cfg) fmt v ∧ (∀ r, r ≠ d → readF r t = readF r s) ∧
        KeptX s t ∧ KeptStatus s t) ∧
    (∀ x, accessCheck s.cfg .load (effAddr base off s) (fmt.width / 8) = some x →
      exec i s = .next (trapped x (effAddr base off s) s))

/-- The floating-point stores (46_f.md R580, R582; 47_d.md R671; 47_q.md R711; 47_zfh_zfhmin.md R751; 48_c.md R816,
R817, R824, R825): the low bytes of `f[rs2]`, unchecked and not modified, those that are a device's delivered to it
(20_memory.md R112; the event is the model's, entry 22); or the access's exception. A misaligned store is single-byte
memory operations, an aligned one wider than XLEN pieces of sizes left open, in an order left open (20_memory.md R107;
21_memory_model.md R132; D2), between which the environment agent has its turn (entry 37). That a store of the hart keeps its reservation is the decision D10 of the spec (entry 16). -/
def Obligations.FloatStoreResult : Prop :=
  ∀ (s : State) (rs2 rs1 : RegNum) (imm : BitVec 12) (crs2 crs1 : CRegNum) (u5 : BitVec 5) (u6 : BitVec 6)
    (i : Instr) (len n : Nat) (src base : RegNum) (off : Word),
    (i, len, n, src, base, off) ∈ ([
      (.fsh rs2 rs1 imm, 4, 2, rs2, rs1, imm.signExtend 64),
      (.fsw rs2 rs1 imm, 4, 4, rs2, rs1, imm.signExtend 64),
      (.fsd rs2 rs1 imm, 4, 8, rs2, rs1, imm.signExtend 64),
      (.fsq rs2 rs1 imm, 4, 16, rs2, rs1, imm.signExtend 64),
      (.cFsw crs2 crs1 u5, 2, 4, cReg crs2, cReg crs1, BitVec.ofNat 64 (4 * u5.toNat)),
      (.cFsd crs2 crs1 u5, 2, 8, cReg crs2, cReg crs1, BitVec.ofNat 64 (8 * u5.toNat)),
      (.cFswsp rs2 u6, 2, 4, rs2, 2, BitVec.ofNat 64 (4 * u6.toNat)),
      (.cFsdsp rs2 u6, 2, 8, rs2, 2, BitVec.ofNat 64 (8 * u6.toNat))] :
        List (Instr × Nat × Nat × RegNum × RegNum × Word)) →
    (accessGranted s.cfg .store (effAddr base off s) n →
      ∃ t, exec i s = .next t ∧ Retired len s t ∧ StoreAccess s t (effAddr base off s) n (readF src s) ∧
        KeptX s t ∧ KeptF s t ∧ KeptStatus s t) ∧
    (∀ x, accessCheck s.cfg .store (effAddr base off s) n = some x →
      exec i s = .next (trapped x (effAddr base off s) s))

/-- Which exception an access raises (60_exceptions.md R953, R955): a vacant first byte gives the access fault of
the kind; a misaligned access follows the policy of the region of its first byte; then a byte that is vacant or
without the permission gives the access fault; an aligned access never raises address-misaligned; and an
access that is granted raises nothing. The precedence among these is a decision of the spec (D19); that it holds of a
misaligned LR, SC or AMO whose first byte is vacant, which R953 and R955 leave open, is the model's reading (entry 9). -/
def Obligations.AccessExceptions : Prop :=
  ∀ (c : Cfg) (k : Access) (a : Word) (n : Nat), 0 < n →
    (regionAt c (truncX c.xlen a).toNat = none → accessCheck c k a n = some (accessFaultOf k)) ∧
    (∀ r, regionAt c (truncX c.xlen a).toNat = some r → (truncX c.xlen a).toNat % n ≠ 0 →
      misalignedPolicy c k r = .misaligned → accessCheck c k a n = some (misalignedOf k)) ∧
    (∀ r, regionAt c (truncX c.xlen a).toNat = some r → (truncX c.xlen a).toNat % n ≠ 0 →
      misalignedPolicy c k r = .accessFault → accessCheck c k a n = some (accessFaultOf k)) ∧
    (∀ r, regionAt c (truncX c.xlen a).toNat = some r →
      ((truncX c.xlen a).toNat % n = 0 ∨ misalignedPolicy c k r = .supported) →
      (∃ j, j < n ∧ (regionAt c (byteAddr c a j)).any (regionPermits k) = false) →
      accessCheck c k a n = some (accessFaultOf k)) ∧
    ((truncX c.xlen a).toNat % n = 0 → accessCheck c k a n ≠ some (misalignedOf k)) ∧
    (accessGranted c k a n ↔ accessCheck c k a n = none)

/-- A load after the store of the same size to the same address gives the value stored, in either byte order
(20_memory.md R96, R111; 40_rv32i_base.md R310): where the environment agent does not write, or where each is one memory
operation, so that it has no turn between them. -/
def Obligations.StoreThenLoad : Prop :=
  ∀ (s : State) (rs2 rs1 rd : RegNum) (imm : BitVec 12) (st ld : Instr) (n : Nat),
    (st, ld, n) ∈ ([
      (.sb rs2 rs1 imm, .lb rd rs1 imm, 1), (.sh rs2 rs1 imm, .lh rd rs1 imm, 2),
      (.sw rs2 rs1 imm, .lw rd rs1 imm, 4), (.sd rs2 rs1 imm, .ld rd rs1 imm, 8)] :
        List (Instr × Instr × Nat)) →
    accessGranted s.cfg .store (effAddr rs1 (imm.signExtend 64) s) n →
    accessGranted s.cfg .load (effAddr rs1 (imm.signExtend 64) s) n →
    NoDevice s.cfg (effAddr rs1 (imm.signExtend 64) s) n →
    (s.cfg.agentWrites = false ∨ Single s.cfg (effAddr rs1 (imm.signExtend 64) s) n) →
    ∃ t u, exec st s = .next t ∧ exec ld t = .next u ∧
      readX rd u = writtenX s.cfg.xlen rd (((readX rs2 s).setWidth (8 * n)).signExtend 64)

/-! ### Atomics -/

/-- LR.W and LR.D (44_a_zam.md R462, R463, R466): the loaded value sign-extended, and a reservation of the set
`RSET(a, n)` of the configuration, which has every byte of the access: the blocks it gives and those bytes, or by default
the aligned granule (D10); the read of
a device's bytes delivered to it (20_memory.md R112; the event is the model's, entry 22); or the access's exception. -/
def Obligations.LoadReservedResult : Prop :=
  ∀ (s : State) (rd rs1 : RegNum) (aq rl : BitVec 1) (i : Instr) (n : Nat),
    (i, n) ∈ ([(.lrW rd rs1 aq rl, 4), (.lrD rd rs1 aq rl, 8)] : List (Instr × Nat)) →
    (accessGranted s.cfg .lr (effAddr rs1 0 s) n →
      ∃ t, ∃ v : BitVec (8 * n), ∃ r, exec i s = .next t ∧ HoldsBytes s (effAddr rs1 0 s) n v ∧ Retired 4 s t ∧
        readX rd t = writtenX s.cfg.xlen rd (v.signExtend 64) ∧ t.reservation = some r ∧
        r.lrAddr = (effAddr rs1 0 s).toNat ∧ r.lrLen = n ∧
        (∀ k, k < n → inReservation r (byteAddr s.cfg (effAddr rs1 0 s) k) = true) ∧
        (∀ e, s.cfg.rset.find? (fun e => e.addr == (effAddr rs1 0 s).toNat && e.len == n) = some e →
          ∀ b, inReservation r b = true ↔
            (∃ g ∈ e.set, g.base ≤ b ∧ b < g.base + g.size) ∨
            ((effAddr rs1 0 s).toNat ≤ b ∧ b < (effAddr rs1 0 s).toNat + n)) ∧
        (s.cfg.rset.find? (fun e => e.addr == (effAddr rs1 0 s).toNat && e.len == n) = none →
          ∀ b, inReservation r b = true ↔
            b / 2 ^ (3 + s.cfg.granuleLog) = (effAddr rs1 0 s).toNat / 2 ^ (3 + s.cfg.granuleLog)) ∧
        KeptXBut rd s t ∧ KeptF s t ∧ KeptStatus s t ∧ OnlyRead s t (effAddr rs1 0 s) n ∧ t.watch = s.watch) ∧
    (∀ x, accessCheck s.cfg .lr (effAddr rs1 0 s) n = some x →
      exec i s = .next (trapped x (effAddr rs1 0 s) s))

/-- SC.W and SC.D (44_a_zam.md R464 to R466): it succeeds exactly when a reservation is held that has all its bytes
and the free value at the draw says so (entry 16), or a constrained loop is owed it (`ConstrainedLoopSucceeds`; the
recognition of the loop and the bound behind `scOwed` are the model's, entry 36); then it stores,
with 0 in `rd`, and the bytes that are a device's are delivered to it (20_memory.md R112; the event is the model's, entry
22). Otherwise nothing is stored, and `rd` has the failure code. The reservation is gone either way; an exception of
the access leaves it. The failure code 1 is a decision of the spec (D11). -/
def Obligations.StoreConditionalResult : Prop :=
  ∀ (s : State) (rd rs1 rs2 : RegNum) (aq rl : BitVec 1) (i : Instr) (n : Nat),
    (i, n) ∈ ([(.scW rd rs1 rs2 aq rl, 4), (.scD rd rs1 rs2 aq rl, 8)] : List (Instr × Nat)) →
    (accessGranted s.cfg .sc (effAddr rs1 0 s) n →
      ∃ t, exec i s = .next t ∧ Retired 4 s t ∧ t.reservation = none ∧ KeptXBut rd s t ∧ KeptF s t ∧
        KeptStatus s t ∧
        (Reserved s (effAddr rs1 0 s) n →
          (Config.scSucceeds s.draw = true ∨ scOwed (effAddr rs1 0 s) n s = true) →
          readX rd t = 0 ∧ Stored s t (effAddr rs1 0 s) n (readX rs2 s) ∧
            t.io = deviceWrites s.cfg (effAddr rs1 0 s) n (readX rs2 s) ++ s.io ∧ t.watch = none) ∧
        (¬ (Reserved s (effAddr rs1 0 s) n ∧
            (Config.scSucceeds s.draw = true ∨ scOwed (effAddr rs1 0 s) n s = true)) →
          readX rd t = writtenX s.cfg.xlen rd 1 ∧ KeptMemory s t)) ∧
    (∀ x, accessCheck s.cfg .sc (effAddr rs1 0 s) n = some x →
      exec i s = .next (trapped x (effAddr rs1 0 s) s))

/-- The eventual success of constrained LR/SC loops (44_a_zam.md R467; 48_c.md R865; 70_reset_and_hazards.md R998). How
the model recognises the loop and that the promise is a bound no proof can see are the model's (entry 36). An SC to the
address and of the size of the LR, in main memory, in a loop of at most 16 sequential instructions, whose reservation
stands, succeeds, or the failure is counted, and only as long as the loop's patience lasts. The instructions R467
permits keep the loop and its count: forward ones after the LR, around the top of the address space too, any after a
failure, and the LR that is reached again.
From one step to the next within a loop the count never falls, and it stays within the bound. -/
def Obligations.ConstrainedLoopSucceeds : Prop :=
  (∀ (s : State) (rd rs1 rs2 : RegNum) (aq rl : BitVec 1) (i : Instr) (n : Nat) (w : LoopWatch),
    (i, n) ∈ ([(.scW rd rs1 rs2 aq rl, 4), (.scD rd rs1 rs2 aq rl, 8)] : List (Instr × Nat)) →
    accessGranted s.cfg .sc (effAddr rs1 0 s) n → Reserved s (effAddr rs1 0 s) n →
    s.watch = some w → w.retrying = false → w.lrAddr = (effAddr rs1 0 s).toNat → w.lrLen = n →
    NoDevice s.cfg (effAddr rs1 0 s) n →
    (∃ first ∈ w.code, ∀ i ∈ w.code, i.1 ∈ placed s w.code 16 first.1) →
    ∃ t, exec i s = .next t ∧
      ((readX rd t = 0 ∧ Stored s t (effAddr rs1 0 s) n (readX rs2 s) ∧ t.watch = none) ∨
        (w.failures ≤ Config.scPatience w.since ∧
          t.watch = some { w with retrying := true, failures := w.failures + 1 }))) ∧
  (∀ (s : State) (w : LoopWatch) (i : Instr) (len : Nat) (rd rs1 rs2 : RegNum) (crd crs : CRegNum) (u20 : BitVec 20)
    (imm : BitVec 12) (sh6 : BitVec 6) (sh5 : BitVec 5) (u8 : BitVec 8) (off : BitVec 11),
    (i, len) ∈ ([
      (.lui rd u20, 4), (.auipc rd u20, 4), (.jal rd u20, 4), (.beq rs1 rs2 imm, 4), (.bne rs1 rs2 imm, 4),
      (.blt rs1 rs2 imm, 4), (.bge rs1 rs2 imm, 4), (.bltu rs1 rs2 imm, 4), (.bgeu rs1 rs2 imm, 4),
      (.addi rd rs1 imm, 4), (.slti rd rs1 imm, 4), (.sltiu rd rs1 imm, 4), (.xori rd rs1 imm, 4),
      (.ori rd rs1 imm, 4), (.andi rd rs1 imm, 4), (.slli rd rs1 sh6, 4), (.srli rd rs1 sh6, 4),
      (.srai rd rs1 sh6, 4), (.add rd rs1 rs2, 4), (.sub rd rs1 rs2, 4), (.sll rd rs1 rs2, 4), (.slt rd rs1 rs2, 4),
      (.sltu rd rs1 rs2, 4), (.xor rd rs1 rs2, 4), (.srl rd rs1 rs2, 4), (.sra rd rs1 rs2, 4), (.or rd rs1 rs2, 4),
      (.and rd rs1 rs2, 4), (.addiw rd rs1 imm, 4), (.slliw rd rs1 sh5, 4), (.srliw rd rs1 sh5, 4),
      (.sraiw rd rs1 sh5, 4), (.addw rd rs1 rs2, 4), (.subw rd rs1 rs2, 4), (.sllw rd rs1 rs2, 4),
      (.srlw rd rs1 rs2, 4), (.sraw rd rs1 rs2, 4), (.ntlP1, 4), (.ntlPall, 4), (.ntlS1, 4), (.ntlAll, 4),
      (.cAddi4spn crd u8, 2), (.cNop sh6, 2), (.cAddi rd sh6, 2), (.cJal off, 2), (.cAddiw rd sh6, 2),
      (.cLi rd sh6, 2), (.cAddi16sp sh6, 2), (.cLui rd sh6, 2), (.cSrli crd sh6, 2), (.cSrai crd sh6, 2),
      (.cAndi crd sh6, 2), (.cSub crd crs, 2), (.cXor crd crs, 2), (.cOr crd crs, 2), (.cAnd crd crs, 2),
      (.cSubw crd crs, 2), (.cAddw crd crs, 2), (.cJ off, 2), (.cBeqz crs u8, 2), (.cBnez crs u8, 2),
      (.cSlli rd sh6, 2), (.cMv rd rs2, 2), (.cAdd rd rs2, 2), (.cNtlP1, 2), (.cNtlPall, 2), (.cNtlS1, 2),
      (.cNtlAll, 2)] : List (Instr × Nat)) →
    s.watch = some w →
    (w.retrying = true ∨
      ∃ d, 0 < d ∧ d < 2 ^ (s.cfg.xlen.bits - 1) ∧ (curPc s).toNat = (w.last + d) % 2 ^ s.cfg.xlen.bits) →
    (observe i s).watch = some { w with
      code := ((curPc s).toNat, len) :: w.code.filter (fun i => i.1 != (curPc s).toNat),
      last := (curPc s).toNat }) ∧
  (∀ (s : State) (w : LoopWatch) (rd rs1 : RegNum) (aq rl : BitVec 1) (i : Instr) (n : Nat),
    (i, n) ∈ ([(.lrW rd rs1 aq rl, 4), (.lrD rd rs1 aq rl, 8)] : List (Instr × Nat)) →
    s.watch = some w → w.retrying = true → w.lrPc = (curPc s).toNat →
    ∃ v, (observe i s).watch = some v ∧ v.since = w.since ∧ v.failures = w.failures ∧ v.retrying = false ∧
      v.lrAddr = (effAddr rs1 0 s).toNat ∧ v.lrLen = n) ∧
  (∀ (s t : State) (v w : LoopWatch), s.Inv → step s = .next t → s.watch = some v → t.watch = some w →
    w.since = v.since → v.failures ≤ w.failures ∧ w.failures ≤ Config.scPatience v.since + 1)

/-- The atomic memory operations (44_a_zam.md R480 to R489): the value loaded, sign-extended, in `rd`; the operator's
result on it and `x[rs2]` in its place; the read and then the store of a device's bytes delivered to it
(20_memory.md R112; the events are the model's, entry 22); or the access's exception. That an AMO of the hart keeps its
reservation is the decision D10 of the spec (entry 16). A misaligned AMO, which Zam lets proceed, is single-byte memory
operations, between which the environment agent has its turn (R495; 20_memory.md R108; 21_memory_model.md R132; that the
axiom of R495 leaves it one is the model's reading, entry 8). -/
def Obligations.AmoResult : Prop :=
  ∀ (s : State) (rd rs1 rs2 : RegNum) (aq rl : BitVec 1) (i : Instr) (n : Nat) (k : AmoOp) (op : AluOp),
    (i, n, k, op) ∈ ([
      (.amoswapW rd rs1 rs2 aq rl, 4, .swap, fun _ _ b => b),
      (.amoaddW rd rs1 rs2 aq rl, 4, .add, fun _ a b => a + b),
      (.amoxorW rd rs1 rs2 aq rl, 4, .xor, fun _ a b => a ^^^ b),
      (.amoandW rd rs1 rs2 aq rl, 4, .and, fun _ a b => a &&& b),
      (.amoorW rd rs1 rs2 aq rl, 4, .or, fun _ a b => a ||| b),
      (.amominW rd rs1 rs2 aq rl, 4, .min, fun _ a b => if b.slt a then b else a),
      (.amomaxW rd rs1 rs2 aq rl, 4, .max, fun _ a b => if a.slt b then b else a),
      (.amominuW rd rs1 rs2 aq rl, 4, .minu, fun _ a b => if b.ult a then b else a),
      (.amomaxuW rd rs1 rs2 aq rl, 4, .maxu, fun _ a b => if a.ult b then b else a),
      (.amoswapD rd rs1 rs2 aq rl, 8, .swap, fun _ _ b => b),
      (.amoaddD rd rs1 rs2 aq rl, 8, .add, fun _ a b => a + b),
      (.amoxorD rd rs1 rs2 aq rl, 8, .xor, fun _ a b => a ^^^ b),
      (.amoandD rd rs1 rs2 aq rl, 8, .and, fun _ a b => a &&& b),
      (.amoorD rd rs1 rs2 aq rl, 8, .or, fun _ a b => a ||| b),
      (.amominD rd rs1 rs2 aq rl, 8, .min, fun _ a b => if b.slt a then b else a),
      (.amomaxD rd rs1 rs2 aq rl, 8, .max, fun _ a b => if a.slt b then b else a),
      (.amominuD rd rs1 rs2 aq rl, 8, .minu, fun _ a b => if b.ult a then b else a),
      (.amomaxuD rd rs1 rs2 aq rl, 8, .maxu, fun _ a b => if a.ult b then b else a)] :
        List (Instr × Nat × AmoOp × AluOp)) →
    (accessGranted s.cfg (.amo k) (effAddr rs1 0 s) n →
      ∃ t, ∃ v : BitVec (8 * n), exec i s = .next t ∧ Retired 4 s t ∧
        readX rd t = writtenX s.cfg.xlen rd (v.signExtend 64) ∧
        AmoAccess s t (effAddr rs1 0 s) n v (op (8 * n) v ((readX rs2 s).setWidth (8 * n))) ∧
        KeptXBut rd s t ∧ KeptF s t ∧ KeptStatus s t) ∧
    (∀ x, accessCheck s.cfg (.amo k) (effAddr rs1 0 s) n = some x →
      exec i s = .next (trapped x (effAddr rs1 0 s) s))

/-- No instruction but LR and SC changes the reservation (44_a_zam.md R462, R465; 10_state.md R66), unless the environment
agent breaks it between the memory operations of a load, a store or an AMO whose access is several (D5; entries 8, 37);
that a store of the same hart leaves it is a decision of the spec (D10; entry 16). -/
def Obligations.ReservationOnlyByLrSc : Prop :=
  ∀ (i : Instr) (s t : State), exec i s = .next t → t.reservation ≠ s.reservation →
    (∃ rd rs1 aq rl, i = .lrW rd rs1 aq rl ∨ i = .lrD rd rs1 aq rl) ∨
    (∃ rd rs1 rs2 aq rl, i = .scW rd rs1 rs2 aq rl ∨ i = .scD rd rs1 rs2 aq rl) ∨
    (s.cfg.agentWrites = true ∧ t.reservation = none ∧
      ∃ (r1 r2 base : RegNum) (imm : BitVec 12) (c1 c2 : CRegNum) (u5 : BitVec 5) (u6 : BitVec 6) (aq rl : BitVec 1)
        (off : Word) (n : Nat), ¬ Single s.cfg (effAddr base off s) n ∧
        ((i, base, off, n) ∈ ([
          (.lh r1 base imm, base, imm.signExtend 64, 2), (.lhu r1 base imm, base, imm.signExtend 64, 2),
          (.lw r1 base imm, base, imm.signExtend 64, 4), (.lwu r1 base imm, base, imm.signExtend 64, 4),
          (.ld r1 base imm, base, imm.signExtend 64, 8), (.sh r2 base imm, base, imm.signExtend 64, 2),
          (.sw r2 base imm, base, imm.signExtend 64, 4), (.sd r2 base imm, base, imm.signExtend 64, 8),
          (.flh r1 base imm, base, imm.signExtend 64, 2), (.flw r1 base imm, base, imm.signExtend 64, 4),
          (.fld r1 base imm, base, imm.signExtend 64, 8), (.flq r1 base imm, base, imm.signExtend 64, 16),
          (.fsh r2 base imm, base, imm.signExtend 64, 2), (.fsw r2 base imm, base, imm.signExtend 64, 4),
          (.fsd r2 base imm, base, imm.signExtend 64, 8), (.fsq r2 base imm, base, imm.signExtend 64, 16)] :
            List (Instr × RegNum × Word × Nat)) ∨
          (i, base, off, n) ∈ ([
          (.cLw c1 c2 u5, cReg c2, BitVec.ofNat 64 (4 * u5.toNat), 4),
          (.cLd c1 c2 u5, cReg c2, BitVec.ofNat 64 (8 * u5.toNat), 8),
          (.cLwsp r1 u6, 2, BitVec.ofNat 64 (4 * u6.toNat), 4), (.cLdsp r1 u6, 2, BitVec.ofNat 64 (8 * u6.toNat), 8),
          (.cSw c1 c2 u5, cReg c2, BitVec.ofNat 64 (4 * u5.toNat), 4),
          (.cSd c1 c2 u5, cReg c2, BitVec.ofNat 64 (8 * u5.toNat), 8),
          (.cSwsp r2 u6, 2, BitVec.ofNat 64 (4 * u6.toNat), 4), (.cSdsp r2 u6, 2, BitVec.ofNat 64 (8 * u6.toNat), 8),
          (.cFlw c1 c2 u5, cReg c2, BitVec.ofNat 64 (4 * u5.toNat), 4),
          (.cFld c1 c2 u5, cReg c2, BitVec.ofNat 64 (8 * u5.toNat), 8),
          (.cFlwsp r1 u6, 2, BitVec.ofNat 64 (4 * u6.toNat), 4),
          (.cFldsp r1 u6, 2, BitVec.ofNat 64 (8 * u6.toNat), 8),
          (.cFsw c1 c2 u5, cReg c2, BitVec.ofNat 64 (4 * u5.toNat), 4),
          (.cFsd c1 c2 u5, cReg c2, BitVec.ofNat 64 (8 * u5.toNat), 8),
          (.cFswsp r2 u6, 2, BitVec.ofNat 64 (4 * u6.toNat), 4),
          (.cFsdsp r2 u6, 2, BitVec.ofNat 64 (8 * u6.toNat), 8)] : List (Instr × RegNum × Word × Nat)) ∨
          (i, base, off, n) ∈ ([
          (.amoswapW r1 base r2 aq rl, base, 0, 4), (.amoaddW r1 base r2 aq rl, base, 0, 4),
          (.amoxorW r1 base r2 aq rl, base, 0, 4), (.amoandW r1 base r2 aq rl, base, 0, 4),
          (.amoorW r1 base r2 aq rl, base, 0, 4), (.amominW r1 base r2 aq rl, base, 0, 4),
          (.amomaxW r1 base r2 aq rl, base, 0, 4), (.amominuW r1 base r2 aq rl, base, 0, 4),
          (.amomaxuW r1 base r2 aq rl, base, 0, 4), (.amoswapD r1 base r2 aq rl, base, 0, 8),
          (.amoaddD r1 base r2 aq rl, base, 0, 8), (.amoxorD r1 base r2 aq rl, base, 0, 8),
          (.amoandD r1 base r2 aq rl, base, 0, 8), (.amoorD r1 base r2 aq rl, base, 0, 8),
          (.amominD r1 base r2 aq rl, base, 0, 8), (.amomaxD r1 base r2 aq rl, base, 0, 8),
          (.amominuD r1 base r2 aq rl, base, 0, 8), (.amomaxuD r1 base r2 aq rl, base, 0, 8)] :
            List (Instr × RegNum × Word × Nat))))

/-! ### Control and status registers -/

/-- The CSR instructions (45_zicsr_counters.md R522 to R532): the old value in `rd`; the new value in the fields
the CSR has; CSRRS, CSRRC and their immediate forms with `x0` or 0 write nothing. -/
def Obligations.CsrResult : Prop :=
  ∀ (s : State) (rd rs1 : RegNum) (uimm : BitVec 5) (a : BitVec 12) (r : CsrName) (i : Instr) (new : Option Word),
    csrAt a = some r → csrPermitted s.cfg r new.isSome = true →
    (i, new) ∈ ([
      (.csrrw rd a rs1, some (readX rs1 s)),
      (.csrrs rd a rs1, if rs1 = 0 then none else some (csrRead r s ||| readX rs1 s)),
      (.csrrc rd a rs1, if rs1 = 0 then none else some (csrRead r s &&& ~~~readX rs1 s)),
      (.csrrwi rd a uimm, some (uimm.setWidth 64)),
      (.csrrsi rd a uimm, if uimm = 0 then none else some (csrRead r s ||| uimm.setWidth 64)),
      (.csrrci rd a uimm, if uimm = 0 then none else some (csrRead r s &&& ~~~uimm.setWidth 64))] :
        List (Instr × Option Word)) →
    ∃ t, exec i s = .next t ∧ Retired 4 s t ∧ readX rd t = writtenX s.cfg.xlen rd (csrRead r s) ∧
      (match r, new with
        | .fflags, some v => t.fflags = v.extractLsb' 0 5 ∧ t.frm = s.frm
        | .frm, some v => t.frm = v.extractLsb' 0 3 ∧ t.fflags = s.fflags
        | .fcsr, some v => t.frm = v.extractLsb' 5 3 ∧ t.fflags = v.extractLsb' 0 5
        | _, _ => KeptFcsr s t) ∧
      KeptXBut rd s t ∧ KeptF s t ∧ KeptCounters s t ∧ KeptMemory s t ∧ KeptControl s t ∧
      KeptReservation s t

/-- A CSR instruction whose CSR is absent, or read-only and written, is an illegal instruction and changes nothing
else (45_zicsr_counters.md R530, R535; 60_exceptions.md R952 (i)); every counter is read-only. That an absent CSR
is illegal is a decision of the spec (D13). -/
def Obligations.CsrIllegal : Prop :=
  (∀ (s : State) (rd rs1 : RegNum) (uimm : BitVec 5) (a : BitVec 12) (i : Instr) (write : Bool),
    (i, write) ∈ ([
      (.csrrw rd a rs1, true), (.csrrs rd a rs1, rs1 != 0), (.csrrc rd a rs1, rs1 != 0),
      (.csrrwi rd a uimm, true), (.csrrsi rd a uimm, uimm != 0), (.csrrci rd a uimm, uimm != 0)] :
        List (Instr × Bool)) →
    (∀ r, csrAt a = some r → csrPermitted s.cfg r write = false) →
    exec i s = .next (trapped .illegalInstruction (truncX s.cfg.xlen ((encode i).setWidth 64)) s)) ∧
  (∀ (c : Cfg) (n : BitVec 5),
    csrPermitted c (.counter n) true = false ∧ csrPermitted c (.counterHigh n) true = false)

/-- The CSRs (10_state.md R51 to R54, R61 to R65; 45_zicsr_counters.md R522, R535, R546 to R550). The map of addresses,
and no other address. A counter that is there reads as its value, the low XLEN bits at 0xC00 + n and on RV32 the high
half at 0xC80 + n; one that is absent, or kept from the hart, may not be read, which rests on decisions D12 and D13 of the
spec (entries 17, 18). A read is zero-extended to XLEN bits; CSRRW writes the low 5 bits of `fflags`, 3 of `frm`, 8 of
`fcsr`, and ignores the others. The other forms are in `CsrResult`. -/
def Obligations.CsrsAndCounters : Prop :=
  (csrAt 0x001 = some .fflags ∧ csrAt 0x002 = some .frm ∧ csrAt 0x003 = some .fcsr ∧
    (∀ n : BitVec 5, csrAt (0xC00#12 + n.setWidth 12) = some (.counter n) ∧
      csrAt (0xC80#12 + n.setWidth 12) = some (.counterHigh n)) ∧
    ∀ a, csrAt a ≠ none → a = 0x001 ∨ a = 0x002 ∨ a = 0x003 ∨
      ∃ n : BitVec 5, a = 0xC00#12 + n.setWidth 12 ∨ a = 0xC80#12 + n.setWidth 12) ∧
  (∀ (s : State) (rd : RegNum) (n : BitVec 5) (v : BitVec 64), s.cfg.counterAccess = true → CounterIs s n v →
    (∃ t, exec (.csrrs rd (0xC00#12 + n.setWidth 12) 0) s = .next t ∧ Retired 4 s t ∧
      readX rd t = writtenX s.cfg.xlen rd v ∧ KeptXBut rd s t ∧ KeptBeyondX s t) ∧
    (s.cfg.xlen = .rv32 → ∃ t, exec (.csrrs rd (0xC80#12 + n.setWidth 12) 0) s = .next t ∧ Retired 4 s t ∧
      readX rd t = writtenX s.cfg.xlen rd (v >>> 32) ∧ KeptXBut rd s t ∧ KeptBeyondX s t)) ∧
  (∀ (s : State) (n : BitVec 5) (write : Bool),
    ((s.cfg.counterAccess = false ∨ ¬ ∃ v, CounterIs s n v) →
      csrPermitted s.cfg (.counter n) write = false ∧ csrPermitted s.cfg (.counterHigh n) write = false) ∧
    (s.cfg.xlen ≠ .rv32 → csrPermitted s.cfg (.counterHigh n) write = false) ∧
    (csrRead (.counter n) s).toNat = (counterValue s n).toNat % 2 ^ s.cfg.xlen.bits ∧
    (csrRead (.counterHigh n) s).toNat = (counterValue s n).toNat / 2 ^ 32) ∧
  ∀ (s : State) (rd rs1 : RegNum), (s.cfg.ext.f = true ∨ s.cfg.ext.zfinx = true) →
    (∃ t, exec (.csrrw rd 0x001 rs1) s = .next t ∧
      readX rd t = writtenX s.cfg.xlen rd (s.fflags.setWidth 64) ∧
      t.fflags = (readX rs1 s).extractLsb' 0 5 ∧ t.frm = s.frm) ∧
    (∃ t, exec (.csrrw rd 0x002 rs1) s = .next t ∧
      readX rd t = writtenX s.cfg.xlen rd (s.frm.setWidth 64) ∧
      t.frm = (readX rs1 s).extractLsb' 0 3 ∧ t.fflags = s.fflags) ∧
    (∃ t, exec (.csrrw rd 0x003 rs1) s = .next t ∧
      readX rd t = writtenX s.cfg.xlen rd ((s.frm ++ s.fflags).setWidth 64) ∧
      t.frm ++ t.fflags = (readX rs1 s).extractLsb' 0 8)

/-- Only the CSR instructions write `frm` or clear an accrued flag (10_state.md R53, R54): after any other
instruction `frm` is as before and every flag that was set is set. -/
def Obligations.FlagsOnlyAccrue : Prop :=
  ∀ (i : Instr) (s t : State), exec i s = .next t →
    (∀ rd a rs1, i ≠ .csrrw rd a rs1 ∧ i ≠ .csrrs rd a rs1 ∧ i ≠ .csrrc rd a rs1) →
    (∀ rd a uimm, i ≠ .csrrwi rd a uimm ∧ i ≠ .csrrsi rd a uimm ∧ i ≠ .csrrci rd a uimm) →
    t.frm = s.frm ∧ s.fflags &&& t.fflags = s.fflags

/-! ### Floating-point instructions -/

/-- The arithmetic of the four formats (46_f.md R585 to R589, R592 to R596; 47_d.md R672 to R676, R679 to R682;
47_q.md R712 to R716, R719 to R722; 47_zfh_zfhmin.md R752 to R756, R759 to R762): the operation in the effective rounding
mode on the operands as read, its flags accrued; only the destination, the flags, the pc and `instret` change. What the
operations compute is in `FloatArithmeticExact`, `DivideSquareRootRounded` and `FloatSpecialOperands`. -/
def Obligations.FloatArithmeticResult : Prop :=
  ∀ (s : State) (rd rs1 rs2 rs3 : RegNum) (rm : BitVec 3) (m : Rm) (i : Instr) (r : (fmt : Fmt) × FpRes fmt),
    effectiveRm rm s.frm = some m → fpHolds s.cfg r.1 rd = true →
    (i, r) ∈ ([
      (.faddS rd rs1 rs2 rm, ⟨.s, fpAdd .s m (readFp .s rs1 s) (readFp .s rs2 s)⟩),
      (.fsubS rd rs1 rs2 rm, ⟨.s, fpSub .s m (readFp .s rs1 s) (readFp .s rs2 s)⟩),
      (.fmulS rd rs1 rs2 rm, ⟨.s, fpMul .s m (readFp .s rs1 s) (readFp .s rs2 s)⟩),
      (.fdivS rd rs1 rs2 rm, ⟨.s, fpDiv .s m (readFp .s rs1 s) (readFp .s rs2 s)⟩),
      (.fsqrtS rd rs1 rm, ⟨.s, fpSqrt .s m (readFp .s rs1 s)⟩),
      (.fmaddS rd rs1 rs2 rs3 rm, ⟨.s, fpMadd .s m (readFp .s rs1 s) (readFp .s rs2 s) (readFp .s rs3 s)⟩),
      (.fmsubS rd rs1 rs2 rs3 rm, ⟨.s, fpMsub .s m (readFp .s rs1 s) (readFp .s rs2 s) (readFp .s rs3 s)⟩),
      (.fnmsubS rd rs1 rs2 rs3 rm, ⟨.s, fpNmsub .s m (readFp .s rs1 s) (readFp .s rs2 s) (readFp .s rs3 s)⟩),
      (.fnmaddS rd rs1 rs2 rs3 rm, ⟨.s, fpNmadd .s m (readFp .s rs1 s) (readFp .s rs2 s) (readFp .s rs3 s)⟩),
      (.faddD rd rs1 rs2 rm, ⟨.d, fpAdd .d m (readFp .d rs1 s) (readFp .d rs2 s)⟩),
      (.fsubD rd rs1 rs2 rm, ⟨.d, fpSub .d m (readFp .d rs1 s) (readFp .d rs2 s)⟩),
      (.fmulD rd rs1 rs2 rm, ⟨.d, fpMul .d m (readFp .d rs1 s) (readFp .d rs2 s)⟩),
      (.fdivD rd rs1 rs2 rm, ⟨.d, fpDiv .d m (readFp .d rs1 s) (readFp .d rs2 s)⟩),
      (.fsqrtD rd rs1 rm, ⟨.d, fpSqrt .d m (readFp .d rs1 s)⟩),
      (.fmaddD rd rs1 rs2 rs3 rm, ⟨.d, fpMadd .d m (readFp .d rs1 s) (readFp .d rs2 s) (readFp .d rs3 s)⟩),
      (.fmsubD rd rs1 rs2 rs3 rm, ⟨.d, fpMsub .d m (readFp .d rs1 s) (readFp .d rs2 s) (readFp .d rs3 s)⟩),
      (.fnmsubD rd rs1 rs2 rs3 rm, ⟨.d, fpNmsub .d m (readFp .d rs1 s) (readFp .d rs2 s) (readFp .d rs3 s)⟩),
      (.fnmaddD rd rs1 rs2 rs3 rm, ⟨.d, fpNmadd .d m (readFp .d rs1 s) (readFp .d rs2 s) (readFp .d rs3 s)⟩),
      (.faddQ rd rs1 rs2 rm, ⟨.q, fpAdd .q m (readFp .q rs1 s) (readFp .q rs2 s)⟩),
      (.fsubQ rd rs1 rs2 rm, ⟨.q, fpSub .q m (readFp .q rs1 s) (readFp .q rs2 s)⟩),
      (.fmulQ rd rs1 rs2 rm, ⟨.q, fpMul .q m (readFp .q rs1 s) (readFp .q rs2 s)⟩),
      (.fdivQ rd rs1 rs2 rm, ⟨.q, fpDiv .q m (readFp .q rs1 s) (readFp .q rs2 s)⟩),
      (.fsqrtQ rd rs1 rm, ⟨.q, fpSqrt .q m (readFp .q rs1 s)⟩),
      (.fmaddQ rd rs1 rs2 rs3 rm, ⟨.q, fpMadd .q m (readFp .q rs1 s) (readFp .q rs2 s) (readFp .q rs3 s)⟩),
      (.fmsubQ rd rs1 rs2 rs3 rm, ⟨.q, fpMsub .q m (readFp .q rs1 s) (readFp .q rs2 s) (readFp .q rs3 s)⟩),
      (.fnmsubQ rd rs1 rs2 rs3 rm, ⟨.q, fpNmsub .q m (readFp .q rs1 s) (readFp .q rs2 s) (readFp .q rs3 s)⟩),
      (.fnmaddQ rd rs1 rs2 rs3 rm, ⟨.q, fpNmadd .q m (readFp .q rs1 s) (readFp .q rs2 s) (readFp .q rs3 s)⟩),
      (.faddH rd rs1 rs2 rm, ⟨.h, fpAdd .h m (readFp .h rs1 s) (readFp .h rs2 s)⟩),
      (.fsubH rd rs1 rs2 rm, ⟨.h, fpSub .h m (readFp .h rs1 s) (readFp .h rs2 s)⟩),
      (.fmulH rd rs1 rs2 rm, ⟨.h, fpMul .h m (readFp .h rs1 s) (readFp .h rs2 s)⟩),
      (.fdivH rd rs1 rs2 rm, ⟨.h, fpDiv .h m (readFp .h rs1 s) (readFp .h rs2 s)⟩),
      (.fsqrtH rd rs1 rm, ⟨.h, fpSqrt .h m (readFp .h rs1 s)⟩),
      (.fmaddH rd rs1 rs2 rs3 rm, ⟨.h, fpMadd .h m (readFp .h rs1 s) (readFp .h rs2 s) (readFp .h rs3 s)⟩),
      (.fmsubH rd rs1 rs2 rs3 rm, ⟨.h, fpMsub .h m (readFp .h rs1 s) (readFp .h rs2 s) (readFp .h rs3 s)⟩),
      (.fnmsubH rd rs1 rs2 rs3 rm, ⟨.h, fpNmsub .h m (readFp .h rs1 s) (readFp .h rs2 s) (readFp .h rs3 s)⟩),
      (.fnmaddH rd rs1 rs2 rs3 rm, ⟨.h, fpNmadd .h m (readFp .h rs1 s) (readFp .h rs2 s) (readFp .h rs3 s)⟩)] :
        List (Instr × ((fmt : Fmt) × FpRes fmt))) →
    ∃ t, exec i s = .next t ∧ Retired 4 s t ∧ FpWritten r.1 rd r.2.1 s t ∧ t.fflags = s.fflags ||| r.2.2 ∧
      KeptBeyondFp s t

/-- An instruction with an `rm` field whose effective rounding mode is reserved is an illegal instruction and
changes nothing else (46_f.md R572, R573; that it traps is the decision D14 of the spec). -/
def Obligations.ReservedRoundingModeTraps : Prop :=
  ∀ (s : State) (rd rs1 rs2 rs3 : RegNum) (rm : BitVec 3) (i : Instr),
    effectiveRm rm s.frm = none →
    i ∈ ([
      .faddS rd rs1 rs2 rm, .fsubS rd rs1 rs2 rm, .fmulS rd rs1 rs2 rm, .fdivS rd rs1 rs2 rm,
      .fsqrtS rd rs1 rm, .fmaddS rd rs1 rs2 rs3 rm, .fmsubS rd rs1 rs2 rs3 rm, .fnmsubS rd rs1 rs2 rs3 rm,
      .fnmaddS rd rs1 rs2 rs3 rm, .fcvtWS rd rs1 rm, .fcvtWuS rd rs1 rm, .fcvtLS rd rs1 rm, .fcvtLuS rd rs1 rm,
      .fcvtSW rd rs1 rm, .fcvtSWu rd rs1 rm, .fcvtSL rd rs1 rm, .fcvtSLu rd rs1 rm, .faddD rd rs1 rs2 rm,
      .fsubD rd rs1 rs2 rm, .fmulD rd rs1 rs2 rm, .fdivD rd rs1 rs2 rm, .fsqrtD rd rs1 rm,
      .fmaddD rd rs1 rs2 rs3 rm, .fmsubD rd rs1 rs2 rs3 rm, .fnmsubD rd rs1 rs2 rs3 rm,
      .fnmaddD rd rs1 rs2 rs3 rm, .fcvtWD rd rs1 rm, .fcvtWuD rd rs1 rm, .fcvtLD rd rs1 rm, .fcvtLuD rd rs1 rm,
      .fcvtDW rd rs1 rm, .fcvtDWu rd rs1 rm, .fcvtDL rd rs1 rm, .fcvtDLu rd rs1 rm, .faddQ rd rs1 rs2 rm,
      .fsubQ rd rs1 rs2 rm, .fmulQ rd rs1 rs2 rm, .fdivQ rd rs1 rs2 rm, .fsqrtQ rd rs1 rm,
      .fmaddQ rd rs1 rs2 rs3 rm, .fmsubQ rd rs1 rs2 rs3 rm, .fnmsubQ rd rs1 rs2 rs3 rm,
      .fnmaddQ rd rs1 rs2 rs3 rm, .fcvtWQ rd rs1 rm, .fcvtWuQ rd rs1 rm, .fcvtLQ rd rs1 rm, .fcvtLuQ rd rs1 rm,
      .fcvtQW rd rs1 rm, .fcvtQWu rd rs1 rm, .fcvtQL rd rs1 rm, .fcvtQLu rd rs1 rm, .faddH rd rs1 rs2 rm,
      .fsubH rd rs1 rs2 rm, .fmulH rd rs1 rs2 rm, .fdivH rd rs1 rs2 rm, .fsqrtH rd rs1 rm,
      .fmaddH rd rs1 rs2 rs3 rm, .fmsubH rd rs1 rs2 rs3 rm, .fnmsubH rd rs1 rs2 rs3 rm,
      .fnmaddH rd rs1 rs2 rs3 rm, .fcvtWH rd rs1 rm, .fcvtWuH rd rs1 rm, .fcvtLH rd rs1 rm, .fcvtLuH rd rs1 rm,
      .fcvtHW rd rs1 rm, .fcvtHWu rd rs1 rm, .fcvtHL rd rs1 rm, .fcvtHLu rd rs1 rm, .fcvtSD rd rs1 rm,
      .fcvtDS rd rs1 rm, .fcvtSQ rd rs1 rm, .fcvtQS rd rs1 rm, .fcvtDQ rd rs1 rm, .fcvtQD rd rs1 rm,
      .fcvtSH rd rs1 rm, .fcvtHS rd rs1 rm, .fcvtDH rd rs1 rm, .fcvtHD rd rs1 rm, .fcvtQH rd rs1 rm,
      .fcvtHQ rd rs1 rm] : List Instr) →
    exec i s = .next (trapped .illegalInstruction (truncX s.cfg.xlen ((encode i).setWidth 64)) s)

/-- Sign injection, minimum and maximum in the four formats (46_f.md R590, R591, R610 to R612 and their
counterparts): the result, its flags accrued, nothing else. -/
def Obligations.FloatSelectResult : Prop :=
  ∀ (s : State) (rd rs1 rs2 : RegNum) (i : Instr) (r : (fmt : Fmt) × FpRes fmt),
    fpHolds s.cfg r.1 rd = true →
    (i, r) ∈ ([
      (.fsgnjS rd rs1 rs2, ⟨.s, fpSgnj .s (readFp .s rs1 s) (readFp .s rs2 s)⟩),
      (.fsgnjnS rd rs1 rs2, ⟨.s, fpSgnjn .s (readFp .s rs1 s) (readFp .s rs2 s)⟩),
      (.fsgnjxS rd rs1 rs2, ⟨.s, fpSgnjx .s (readFp .s rs1 s) (readFp .s rs2 s)⟩),
      (.fminS rd rs1 rs2, ⟨.s, fpMin .s (readFp .s rs1 s) (readFp .s rs2 s)⟩),
      (.fmaxS rd rs1 rs2, ⟨.s, fpMax .s (readFp .s rs1 s) (readFp .s rs2 s)⟩),
      (.fsgnjD rd rs1 rs2, ⟨.d, fpSgnj .d (readFp .d rs1 s) (readFp .d rs2 s)⟩),
      (.fsgnjnD rd rs1 rs2, ⟨.d, fpSgnjn .d (readFp .d rs1 s) (readFp .d rs2 s)⟩),
      (.fsgnjxD rd rs1 rs2, ⟨.d, fpSgnjx .d (readFp .d rs1 s) (readFp .d rs2 s)⟩),
      (.fminD rd rs1 rs2, ⟨.d, fpMin .d (readFp .d rs1 s) (readFp .d rs2 s)⟩),
      (.fmaxD rd rs1 rs2, ⟨.d, fpMax .d (readFp .d rs1 s) (readFp .d rs2 s)⟩),
      (.fsgnjQ rd rs1 rs2, ⟨.q, fpSgnj .q (readFp .q rs1 s) (readFp .q rs2 s)⟩),
      (.fsgnjnQ rd rs1 rs2, ⟨.q, fpSgnjn .q (readFp .q rs1 s) (readFp .q rs2 s)⟩),
      (.fsgnjxQ rd rs1 rs2, ⟨.q, fpSgnjx .q (readFp .q rs1 s) (readFp .q rs2 s)⟩),
      (.fminQ rd rs1 rs2, ⟨.q, fpMin .q (readFp .q rs1 s) (readFp .q rs2 s)⟩),
      (.fmaxQ rd rs1 rs2, ⟨.q, fpMax .q (readFp .q rs1 s) (readFp .q rs2 s)⟩),
      (.fsgnjH rd rs1 rs2, ⟨.h, fpSgnj .h (readFp .h rs1 s) (readFp .h rs2 s)⟩),
      (.fsgnjnH rd rs1 rs2, ⟨.h, fpSgnjn .h (readFp .h rs1 s) (readFp .h rs2 s)⟩),
      (.fsgnjxH rd rs1 rs2, ⟨.h, fpSgnjx .h (readFp .h rs1 s) (readFp .h rs2 s)⟩),
      (.fminH rd rs1 rs2, ⟨.h, fpMin .h (readFp .h rs1 s) (readFp .h rs2 s)⟩),
      (.fmaxH rd rs1 rs2, ⟨.h, fpMax .h (readFp .h rs1 s) (readFp .h rs2 s)⟩)] :
        List (Instr × ((fmt : Fmt) × FpRes fmt))) →
    ∃ t, exec i s = .next t ∧ Retired 4 s t ∧ FpWritten r.1 rd r.2.1 s t ∧ t.fflags = s.fflags ||| r.2.2 ∧
      KeptBeyondFp s t

/-- The comparisons in the four formats (46_f.md R615 to R617 and their counterparts): 1 or 0 in `x[rd]`, the
flags accrued, nothing else. A NaN operand gives 0, with NV for FEQ only if one is signalling, for FLT and FLE always;
else the answer is that of the order of the numbers and infinities, both zeros equal, without a flag. That order, with
the zeros equal, is IEEE 754's, which R615 states from general knowledge (entry 26). -/
def Obligations.FloatCompareResult : Prop :=
  (∀ (s : State) (rd rs1 rs2 : RegNum) (i : Instr) (r : Bool × FpFlags),
    (i, r) ∈ ([
      (.feqS rd rs1 rs2, fpEq .s (readFp .s rs1 s) (readFp .s rs2 s)),
      (.fltS rd rs1 rs2, fpLt .s (readFp .s rs1 s) (readFp .s rs2 s)),
      (.fleS rd rs1 rs2, fpLe .s (readFp .s rs1 s) (readFp .s rs2 s)),
      (.feqD rd rs1 rs2, fpEq .d (readFp .d rs1 s) (readFp .d rs2 s)),
      (.fltD rd rs1 rs2, fpLt .d (readFp .d rs1 s) (readFp .d rs2 s)),
      (.fleD rd rs1 rs2, fpLe .d (readFp .d rs1 s) (readFp .d rs2 s)),
      (.feqQ rd rs1 rs2, fpEq .q (readFp .q rs1 s) (readFp .q rs2 s)),
      (.fltQ rd rs1 rs2, fpLt .q (readFp .q rs1 s) (readFp .q rs2 s)),
      (.fleQ rd rs1 rs2, fpLe .q (readFp .q rs1 s) (readFp .q rs2 s)),
      (.feqH rd rs1 rs2, fpEq .h (readFp .h rs1 s) (readFp .h rs2 s)),
      (.fltH rd rs1 rs2, fpLt .h (readFp .h rs1 s) (readFp .h rs2 s)),
      (.fleH rd rs1 rs2, fpLe .h (readFp .h rs1 s) (readFp .h rs2 s))] :
        List (Instr × Bool × FpFlags)) →
    ∃ t, exec i s = .next t ∧ Retired 4 s t ∧ readX rd t = writtenX s.cfg.xlen rd (if r.1 then 1 else 0) ∧
      t.fflags = s.fflags ||| r.2 ∧ KeptXBut rd s t ∧ KeptF s t ∧ KeptBeyondFp s t) ∧
  ∀ (fmt : Fmt) (a b : FpBits fmt),
    ((fpIsNaN fmt a = true ∨ fpIsNaN fmt b = true) →
      fpEq fmt a b = (false, flagIf (fpIsSNaN fmt a || fpIsSNaN fmt b) flagNV) ∧
      fpLt fmt a b = (false, flagNV) ∧ fpLe fmt a b = (false, flagNV)) ∧
    (fpIsNaN fmt a = false → fpIsNaN fmt b = false →
      ((fpEq fmt a b).1 = true ↔ fpOrder fmt a = fpOrder fmt b) ∧
      ((fpLt fmt a b).1 = true ↔ fpOrder fmt a < fpOrder fmt b) ∧
      ((fpLe fmt a b).1 = true ↔ fpOrder fmt a ≤ fpOrder fmt b) ∧
      (fpEq fmt a b).2 = flagsNone ∧ (fpLt fmt a b).2 = flagsNone ∧ (fpLe fmt a b).2 = flagsNone)

/-- FCLASS in the four formats (46_f.md R618 and its counterparts): one bit, of the ten classes, in `x[rd]`; no
flag. The bit is 0 to 9 by infinity, normal, subnormal, zero and NaN as the pattern reads. -/
def Obligations.FloatClassResult : Prop :=
  ∀ (s : State) (rd rs1 : RegNum) (i : Instr) (v : (fmt : Fmt) × FpBits fmt),
    (i, v) ∈ ([
      (.fclassS rd rs1, ⟨.s, readFp .s rs1 s⟩),
      (.fclassD rd rs1, ⟨.d, readFp .d rs1 s⟩),
      (.fclassQ rd rs1, ⟨.q, readFp .q rs1 s⟩),
      (.fclassH rd rs1, ⟨.h, readFp .h rs1 s⟩)] :
        List (Instr × ((fmt : Fmt) × FpBits fmt))) →
    ∃ (t : State) (bit : Nat), exec i s = .next t ∧ Retired 4 s t ∧ readX rd t = writtenX s.cfg.xlen rd (1#64 <<< bit) ∧
      (match fpUnpack v.1 v.2 with
        | .inf neg => bit = if neg then 0 else 7
        | .nan signalling => bit = if signalling then 8 else 9
        | .num neg m _ =>
          bit = if m = 0 then (if neg then 3 else 4)
            else if fpMagnitude v.1 v.2 < 2 ^ v.1.fracBits then (if neg then 2 else 5)
            else (if neg then 1 else 6)) ∧
      t.fflags = s.fflags ∧ KeptXBut rd s t ∧ KeptF s t ∧ KeptBeyondFp s t

/-- The conversions to an integer type (46_f.md R600 to R604 and their counterparts): the rounded and clipped
integer in `x[rd]`, a 32-bit one sign-extended, the flags accrued, nothing else. -/
def Obligations.FloatToIntegerResult : Prop :=
  ∀ (s : State) (rd rs1 : RegNum) (rm : BitVec 3) (m : Rm) (i : Instr) (k : IntTy) (r : Int × FpFlags),
    effectiveRm rm s.frm = some m →
    (i, k, r) ∈ ([
      (.fcvtWS rd rs1 rm, .w, fpToIntVal .s .w m (readFp .s rs1 s)),
      (.fcvtWuS rd rs1 rm, .wu, fpToIntVal .s .wu m (readFp .s rs1 s)),
      (.fcvtLS rd rs1 rm, .l, fpToIntVal .s .l m (readFp .s rs1 s)),
      (.fcvtLuS rd rs1 rm, .lu, fpToIntVal .s .lu m (readFp .s rs1 s)),
      (.fcvtWD rd rs1 rm, .w, fpToIntVal .d .w m (readFp .d rs1 s)),
      (.fcvtWuD rd rs1 rm, .wu, fpToIntVal .d .wu m (readFp .d rs1 s)),
      (.fcvtLD rd rs1 rm, .l, fpToIntVal .d .l m (readFp .d rs1 s)),
      (.fcvtLuD rd rs1 rm, .lu, fpToIntVal .d .lu m (readFp .d rs1 s)),
      (.fcvtWQ rd rs1 rm, .w, fpToIntVal .q .w m (readFp .q rs1 s)),
      (.fcvtWuQ rd rs1 rm, .wu, fpToIntVal .q .wu m (readFp .q rs1 s)),
      (.fcvtLQ rd rs1 rm, .l, fpToIntVal .q .l m (readFp .q rs1 s)),
      (.fcvtLuQ rd rs1 rm, .lu, fpToIntVal .q .lu m (readFp .q rs1 s)),
      (.fcvtWH rd rs1 rm, .w, fpToIntVal .h .w m (readFp .h rs1 s)),
      (.fcvtWuH rd rs1 rm, .wu, fpToIntVal .h .wu m (readFp .h rs1 s)),
      (.fcvtLH rd rs1 rm, .l, fpToIntVal .h .l m (readFp .h rs1 s)),
      (.fcvtLuH rd rs1 rm, .lu, fpToIntVal .h .lu m (readFp .h rs1 s))] :
        List (Instr × IntTy × Int × FpFlags)) →
    ∃ t, exec i s = .next t ∧ Retired 4 s t ∧
      readX rd t = writtenX s.cfg.xlen rd (match k with
        | .w => (BitVec.ofInt 32 r.1).signExtend 64
        | .wu => (BitVec.ofInt 32 r.1).signExtend 64
        | .l => BitVec.ofInt 64 r.1
        | .lu => BitVec.ofInt 64 r.1) ∧
      t.fflags = s.fflags ||| r.2 ∧ KeptXBut rd s t ∧ KeptF s t ∧ KeptBeyondFp s t

/-- The conversions to a format, from an integer type (46_f.md R605 to R608 and their counterparts) and from another
format (47_d.md R665, R691, R692; 47_q.md R731 to R734; 47_zfh_zfhmin.md R771 to R776): the result in the effective
rounding mode, its flags accrued, nothing else. An integer is rounded once to the format, 0 gives +0; of a format, a
number is rounded once, a zero and an infinity keep their sign, a NaN gives the canonical NaN, with NV if signalling.
These cases of zeros, infinities and NaNs (R665) and the rules of rounding (46_f.md R576, R577, R579) are those of IEEE 754,
which the spec states from general knowledge (entry 26). -/
def Obligations.ConversionToFloatResult : Prop :=
  (∀ (s : State) (rd rs1 : RegNum) (rm : BitVec 3) (m : Rm) (i : Instr) (r : (fmt : Fmt) × FpRes fmt),
    effectiveRm rm s.frm = some m → fpHolds s.cfg r.1 rd = true →
    (i, r) ∈ ([
      (.fcvtSW rd rs1 rm, ⟨.s, fpOfInt .s m ((readX rs1 s).setWidth 32).toInt⟩),
      (.fcvtSWu rd rs1 rm, ⟨.s, fpOfInt .s m (((readX rs1 s).setWidth 32).toNat : Int)⟩),
      (.fcvtSL rd rs1 rm, ⟨.s, fpOfInt .s m (readX rs1 s).toInt⟩),
      (.fcvtSLu rd rs1 rm, ⟨.s, fpOfInt .s m ((readX rs1 s).toNat : Int)⟩),
      (.fcvtDW rd rs1 rm, ⟨.d, fpOfInt .d m ((readX rs1 s).setWidth 32).toInt⟩),
      (.fcvtDWu rd rs1 rm, ⟨.d, fpOfInt .d m (((readX rs1 s).setWidth 32).toNat : Int)⟩),
      (.fcvtDL rd rs1 rm, ⟨.d, fpOfInt .d m (readX rs1 s).toInt⟩),
      (.fcvtDLu rd rs1 rm, ⟨.d, fpOfInt .d m ((readX rs1 s).toNat : Int)⟩),
      (.fcvtQW rd rs1 rm, ⟨.q, fpOfInt .q m ((readX rs1 s).setWidth 32).toInt⟩),
      (.fcvtQWu rd rs1 rm, ⟨.q, fpOfInt .q m (((readX rs1 s).setWidth 32).toNat : Int)⟩),
      (.fcvtQL rd rs1 rm, ⟨.q, fpOfInt .q m (readX rs1 s).toInt⟩),
      (.fcvtQLu rd rs1 rm, ⟨.q, fpOfInt .q m ((readX rs1 s).toNat : Int)⟩),
      (.fcvtHW rd rs1 rm, ⟨.h, fpOfInt .h m ((readX rs1 s).setWidth 32).toInt⟩),
      (.fcvtHWu rd rs1 rm, ⟨.h, fpOfInt .h m (((readX rs1 s).setWidth 32).toNat : Int)⟩),
      (.fcvtHL rd rs1 rm, ⟨.h, fpOfInt .h m (readX rs1 s).toInt⟩),
      (.fcvtHLu rd rs1 rm, ⟨.h, fpOfInt .h m ((readX rs1 s).toNat : Int)⟩),
      (.fcvtSD rd rs1 rm, ⟨.s, fpConvert .d .s m (readFp .d rs1 s)⟩),
      (.fcvtDS rd rs1 rm, ⟨.d, fpConvert .s .d m (readFp .s rs1 s)⟩),
      (.fcvtSQ rd rs1 rm, ⟨.s, fpConvert .q .s m (readFp .q rs1 s)⟩),
      (.fcvtQS rd rs1 rm, ⟨.q, fpConvert .s .q m (readFp .s rs1 s)⟩),
      (.fcvtDQ rd rs1 rm, ⟨.d, fpConvert .q .d m (readFp .q rs1 s)⟩),
      (.fcvtQD rd rs1 rm, ⟨.q, fpConvert .d .q m (readFp .d rs1 s)⟩),
      (.fcvtSH rd rs1 rm, ⟨.s, fpConvert .h .s m (readFp .h rs1 s)⟩),
      (.fcvtHS rd rs1 rm, ⟨.h, fpConvert .s .h m (readFp .s rs1 s)⟩),
      (.fcvtDH rd rs1 rm, ⟨.d, fpConvert .h .d m (readFp .h rs1 s)⟩),
      (.fcvtHD rd rs1 rm, ⟨.h, fpConvert .d .h m (readFp .d rs1 s)⟩),
      (.fcvtQH rd rs1 rm, ⟨.q, fpConvert .h .q m (readFp .h rs1 s)⟩),
      (.fcvtHQ rd rs1 rm, ⟨.h, fpConvert .q .h m (readFp .q rs1 s)⟩)] :
        List (Instr × ((fmt : Fmt) × FpRes fmt))) →
    ∃ t, exec i s = .next t ∧ Retired 4 s t ∧ FpWritten r.1 rd r.2.1 s t ∧ t.fflags = s.fflags ||| r.2.2 ∧
      KeptBeyondFp s t) ∧
  (∀ (fmt : Fmt) (m : Rm) (n : Int),
    (n = 0 → fpOfInt fmt m n = (fpZero fmt false, flagsNone)) ∧
    (n ≠ 0 → RoundedOnce fmt m (n : ℝ) (fpOfInt fmt m n))) ∧
  ∀ (g fmt : Fmt) (m : Rm) (v : FpBits g),
    (∀ signalling, fpUnpack g v = .nan signalling →
      fpConvert g fmt m v = (canonicalNaN fmt, flagIf signalling flagNV)) ∧
    (∀ neg, fpUnpack g v = .inf neg → fpConvert g fmt m v = (fpInf fmt neg, flagsNone)) ∧
    (IsZero g v → fpConvert g fmt m v = (fpZero fmt (fpSign g v), flagsNone)) ∧
    (∀ x, IsNumber g v x → x ≠ 0 → RoundedOnce fmt m x (fpConvert g fmt m v))

/-- The moves between the register files (46_f.md R613, R614; 47_d.md R696, R697; 47_zfh_zfhmin.md R780, R781;
10_state.md R59): the low bits unchecked and sign-extended to `x[rd]`; the low bits of `x[rs1]`, boxed, to `f[rd]`. -/
def Obligations.FloatMoveResult : Prop :=
  ∀ (s : State) (rd rs1 : RegNum) (fmt : Fmt),
    (∀ i, (i, fmt) ∈ ([(.fmvXH rd rs1, .h), (.fmvXW rd rs1, .s), (.fmvXD rd rs1, .d)] : List (Instr × Fmt)) →
      ∃ t, exec i s = .next t ∧ Retired 4 s t ∧
        readX rd t = writtenX s.cfg.xlen rd (((readF rs1 s).setWidth fmt.width).signExtend 64) ∧
        KeptXBut rd s t ∧ KeptBeyondX s t) ∧
    (∀ i, fmt.width ≤ flen s.cfg →
      (i, fmt) ∈ ([(.fmvHX rd rs1, .h), (.fmvWX rd rs1, .s), (.fmvDX rd rs1, .d)] : List (Instr × Fmt)) →
      ∃ t, exec i s = .next t ∧ Retired 4 s t ∧
        readF rd t = box (flen s.cfg) fmt ((readX rs1 s).setWidth fmt.width) ∧
        (∀ r, r ≠ rd → readF r t = readF r s) ∧ KeptX s t ∧ KeptStatus s t ∧ KeptMemory s t ∧
        KeptReservation s t)

/-! ### Floating-point arithmetic -/

/-- Floating-point operands. In the `f` registers (10_state.md R57, R58): the low bits if all the upper bits are 1,
else the canonical NaN; what an instruction writes reads back as it is. With Zfinx (49_zfinx_ztso_other.md R906, R908,
R912): the low bits of the integer register, the others unchecked; a double on RV32 an even and the next register, the
even one low, and from `x0` zero throughout. -/
def Obligations.NanBoxing : Prop :=
  (∀ (s : State) (fmt : Fmt) (r : RegNum) (v : FpBits fmt), s.cfg.ext.zfinx = false → fmt.width ≤ flen s.cfg →
    ((∀ j, fmt.width ≤ j → j < flen s.cfg → (readF r s).getLsbD j = true) →
      readFp fmt r s = (readF r s).setWidth fmt.width) ∧
    ((∃ j, fmt.width ≤ j ∧ j < flen s.cfg ∧ (readF r s).getLsbD j = false) → readFp fmt r s = canonicalNaN fmt) ∧
    readFp fmt r (writeFp fmt r v s) = v) ∧
  ∀ (s : State) (r : RegNum), s.cfg.ext.zfinx = true →
    (∀ fmt : Fmt, fmt.width ≤ s.cfg.xlen.bits → readFp fmt r s = (readX r s).setWidth fmt.width) ∧
    (s.cfg.xlen = .rv32 → r ≠ 0 → r.getLsbD 0 = false →
      (readFp .d r s).extractLsb' 0 32 = (readX r s).setWidth 32 ∧
      (readFp .d r s).extractLsb' 32 32 = (readX (r + 1) s).setWidth 32) ∧
    (s.cfg.xlen = .rv32 → readFp .d 0 s = 0)

/-- Sign injection takes every bit but the sign from the first operand, and raises no flag (46_f.md R610 to R612). -/
def Obligations.SignInjectionBits : Prop :=
  ∀ (fmt : Fmt) (a b : FpBits fmt) (r : FpRes fmt) (neg : Bool),
    (r, neg) ∈ ([
      (fpSgnj fmt a b, fpSign fmt b), (fpSgnjn fmt a b, !fpSign fmt b),
      (fpSgnjx fmt a b, fpSign fmt a != fpSign fmt b)] : List (FpRes fmt × Bool)) →
    fpSign fmt r.1 = neg ∧ fpMagnitude fmt r.1 = fpMagnitude fmt a ∧ r.2 = flagsNone

/-- FMIN and FMAX (46_f.md R590, R591): of two numbers, one of them, not above or not below either; of one number
and a NaN, the number; of two NaNs, the canonical NaN; of the two zeros, in either order, -0 and +0; NV for a
signalling NaN. -/
def Obligations.MinimumMaximum : Prop :=
  ∀ (fmt : Fmt) (a b : FpBits fmt),
    (fpIsNaN fmt a = false → fpIsNaN fmt b = false →
      ((fpMin fmt a b).1 = a ∨ (fpMin fmt a b).1 = b) ∧ ((fpMax fmt a b).1 = a ∨ (fpMax fmt a b).1 = b) ∧
      fpKey fmt (fpMin fmt a b).1 ≤ fpKey fmt a ∧ fpKey fmt (fpMin fmt a b).1 ≤ fpKey fmt b ∧
      fpKey fmt a ≤ fpKey fmt (fpMax fmt a b).1 ∧ fpKey fmt b ≤ fpKey fmt (fpMax fmt a b).1 ∧
      fpOrder fmt (fpMin fmt a b).1 = min (fpOrder fmt a) (fpOrder fmt b) ∧
      fpOrder fmt (fpMax fmt a b).1 = max (fpOrder fmt a) (fpOrder fmt b)) ∧
    (fpIsNaN fmt a = true → fpIsNaN fmt b = false → (fpMin fmt a b).1 = b ∧ (fpMax fmt a b).1 = b) ∧
    (fpIsNaN fmt a = false → fpIsNaN fmt b = true → (fpMin fmt a b).1 = a ∧ (fpMax fmt a b).1 = a) ∧
    (fpIsNaN fmt a = true → fpIsNaN fmt b = true →
      (fpMin fmt a b).1 = canonicalNaN fmt ∧ (fpMax fmt a b).1 = canonicalNaN fmt) ∧
    (fpMin fmt (fpZero fmt true) (fpZero fmt false)).1 = fpZero fmt true ∧
    (fpMax fmt (fpZero fmt true) (fpZero fmt false)).1 = fpZero fmt false ∧
    (fpMin fmt (fpZero fmt false) (fpZero fmt true)).1 = fpZero fmt true ∧
    (fpMax fmt (fpZero fmt false) (fpZero fmt true)).1 = fpZero fmt false ∧
    (fpMin fmt a b).2 = flagIf (fpIsSNaN fmt a || fpIsSNaN fmt b) flagNV ∧
    (fpMax fmt a b).2 = flagIf (fpIsSNaN fmt a || fpIsSNaN fmt b) flagNV

/-- The rounding modes on a magnitude `m / 2^k` (46_f.md R576): truncation; to the nearest with ties to even or
away; and the directed modes by the sign: IEEE 754's, which R576 states from general knowledge (entry 26). The integer
square root that FSQRT is computed from is the floor of the root (46_f.md R589). -/
def Obligations.IntegerRounding : Prop :=
  (∀ (neg : Bool) (m k : Nat),
    (roundShift .rtz neg m k * 2 ^ k ≤ m ∧ m < (roundShift .rtz neg m k + 1) * 2 ^ k) ∧
    (2 * m ≤ 2 * (roundShift .rne neg m k * 2 ^ k) + 2 ^ k ∧ 2 * (roundShift .rne neg m k * 2 ^ k) ≤ 2 * m + 2 ^ k ∧
      (2 * (m % 2 ^ k) = 2 ^ k → roundShift .rne neg m k % 2 = 0)) ∧
    (2 * m < 2 * (roundShift .rmm neg m k * 2 ^ k) + 2 ^ k ∧ 2 * (roundShift .rmm neg m k * 2 ^ k) ≤ 2 * m + 2 ^ k) ∧
    (neg = false → roundShift .rdn neg m k = m / 2 ^ k) ∧
    (neg = true → m ≤ roundShift .rdn neg m k * 2 ^ k ∧ roundShift .rdn neg m k * 2 ^ k < m + 2 ^ k) ∧
    roundShift .rup neg m k = roundShift .rdn (!neg) m k) ∧
  ∀ n : Nat, isqrt n * isqrt n ≤ n ∧ n < (isqrt n + 1) * (isqrt n + 1)

/-- Rounding to a format (46_f.md R576, R577, R579; 47_d.md R662): a number the format holds is rounded to itself,
without a flag; a zero keeps its sign; any other number is `RoundedOnce`: overflow with OF and NX to an infinity or the
largest number by the mode, else the number of the format in the mode's direction, NX if it is another, UF if tiny too.
The overflow results, the conditions of the flags and the precise rule of tininess are those of IEEE 754, which R576, R577
and R579 state from general knowledge (entry 26). -/
def Obligations.RoundedToFormat : Prop :=
  ∀ (fmt : Fmt) (rm : Rm),
    (∀ (v : FpBits fmt) (neg : Bool) (m : Nat) (e : Int),
      fpUnpack fmt v = .num neg m e → fpRound fmt rm neg m e = (v, flagsNone)) ∧
    (∀ (neg : Bool) (e : Int), fpRound fmt rm neg 0 e = (fpZero fmt neg, flagsNone)) ∧
    ∀ (neg : Bool) (m : Nat) (e : Int), m ≠ 0 → RoundedOnce fmt rm (numReal neg m e) (fpRound fmt rm neg m e)

/-- The arithmetic on numbers is exact and rounded once (46_f.md R576, R577, R579, R585 to R587, R592 to R596): sums,
differences, products and fused multiply-adds that are not zero are `RoundedOnce` from the real number; an exact zero
product has the exclusive or of the signs; an exact zero sum has the sign of both summands if they agree, else + but in
RDN. The rules are those of IEEE 754, which the spec states from general knowledge (entry 26). -/
def Obligations.FloatArithmeticExact : Prop :=
  ∀ (fmt : Fmt) (rm : Rm) (a b c : FpBits fmt) (A B C : ℝ),
    IsNumber fmt a A → IsNumber fmt b B → IsNumber fmt c C →
    (∀ (r : FpRes fmt) (x : ℝ), (r, x) ∈ ([
        (fpAdd fmt rm a b, A + B), (fpSub fmt rm a b, A - B), (fpMul fmt rm a b, A * B),
        (fpMadd fmt rm a b c, A * B + C), (fpMsub fmt rm a b c, A * B - C),
        (fpNmsub fmt rm a b c, -(A * B) + C), (fpNmadd fmt rm a b c, -(A * B) - C)] : List (FpRes fmt × ℝ)) →
      x ≠ 0 → RoundedOnce fmt rm x r) ∧
    (A * B = 0 → fpMul fmt rm a b = (fpZero fmt (fpSign fmt a != fpSign fmt b), flagsNone)) ∧
    (∀ (r : FpRes fmt) (x : ℝ) (p q : Bool), (r, x, p, q) ∈ ([
        (fpAdd fmt rm a b, A + B, fpSign fmt a, fpSign fmt b),
        (fpSub fmt rm a b, A - B, fpSign fmt a, !fpSign fmt b),
        (fpMadd fmt rm a b c, A * B + C, fpSign fmt a != fpSign fmt b, fpSign fmt c),
        (fpMsub fmt rm a b c, A * B - C, fpSign fmt a != fpSign fmt b, !fpSign fmt c),
        (fpNmsub fmt rm a b c, -(A * B) + C, fpSign fmt a == fpSign fmt b, fpSign fmt c),
        (fpNmadd fmt rm a b c, -(A * B) - C, fpSign fmt a == fpSign fmt b, !fpSign fmt c)] :
          List (FpRes fmt × ℝ × Bool × Bool)) →
      x = 0 → r = (fpZero fmt (if p = q then p else decide (rm = .rdn)), flagsNone))

/-- Division and square root on numbers (46_f.md R576, R577, R588, R589): the exact quotient and the exact root rounded
once; a zero dividend gives a zero with the exclusive or of the signs, a zero divisor an infinity with that sign and DZ,
0 / 0 the canonical NaN with NV; the root of a zero is that zero, of a negative number the canonical NaN with NV. The
rules are those of IEEE 754, which the spec states from general knowledge (entry 26). -/
def Obligations.DivideSquareRootRounded : Prop :=
  ∀ (fmt : Fmt) (rm : Rm) (a b : FpBits fmt) (A B : ℝ), IsNumber fmt a A → IsNumber fmt b B →
    (A ≠ 0 → B ≠ 0 → RoundedOnce fmt rm (A / B) (fpDiv fmt rm a b)) ∧
    (A = 0 → B ≠ 0 → fpDiv fmt rm a b = (fpZero fmt (fpSign fmt a != fpSign fmt b), flagsNone)) ∧
    (A ≠ 0 → B = 0 → fpDiv fmt rm a b = (fpInf fmt (fpSign fmt a != fpSign fmt b), flagDZ)) ∧
    (A = 0 → B = 0 → fpDiv fmt rm a b = (canonicalNaN fmt, flagNV)) ∧
    (0 < A → RoundedOnce fmt rm (Real.sqrt A) (fpSqrt fmt rm a)) ∧
    (A = 0 → fpSqrt fmt rm a = (a, flagsNone)) ∧
    (A < 0 → fpSqrt fmt rm a = (canonicalNaN fmt, flagNV))

/-- The operands that are no numbers (46_f.md R574, R576, R577, R592): a NaN gives the canonical NaN, with NV if one is
signalling; operations on infinities are exact and raise no flag but the invalid ones, inf - inf, 0 * inf, inf / inf and
the root of -inf, which give the canonical NaN and NV, a fused 0 * inf whatever the addend. The rules are those of
IEEE 754, which the spec states from general knowledge (entry 26). -/
def Obligations.FloatSpecialOperands : Prop :=
  ∀ (fmt : Fmt) (rm : Rm) (a b c : FpBits fmt),
    (fpUnpack fmt (canonicalNaN fmt) = .nan false ∧ ∀ neg, fpUnpack fmt (fpInf fmt neg) = .inf neg ∧
      IsZero fmt (fpZero fmt neg) ∧ fpSign fmt (fpZero fmt neg) = neg) ∧
    (fpIsNaN fmt a = true ∨ fpIsNaN fmt b = true → ∀ r ∈ [fpAdd fmt rm a b, fpSub fmt rm a b, fpMul fmt rm a b,
        fpDiv fmt rm a b], r = (canonicalNaN fmt, flagIf (fpIsSNaN fmt a || fpIsSNaN fmt b) flagNV)) ∧
    (fpIsNaN fmt a = true → fpSqrt fmt rm a = (canonicalNaN fmt, flagIf (fpIsSNaN fmt a) flagNV)) ∧
    (∀ (r : FpRes fmt) (flip : Bool), (r, flip) ∈ [(fpAdd fmt rm a b, false), (fpSub fmt rm a b, true)] →
      (IsInf fmt a → IsInf fmt b → r = if fpSign fmt a = (fpSign fmt b != flip) then (fpInf fmt (fpSign fmt a), flagsNone)
        else (canonicalNaN fmt, flagNV)) ∧
      (∀ x, IsInf fmt a → IsNumber fmt b x → r = (fpInf fmt (fpSign fmt a), flagsNone)) ∧
      (∀ x, IsNumber fmt a x → IsInf fmt b → r = (fpInf fmt (fpSign fmt b != flip), flagsNone))) ∧
    (InfiniteProduct fmt a b → fpMul fmt rm a b = (fpInf fmt (fpSign fmt a != fpSign fmt b), flagsNone)) ∧
    (InvalidProduct fmt a b → fpMul fmt rm a b = (canonicalNaN fmt, flagNV)) ∧
    (IsInf fmt a → IsInf fmt b → fpDiv fmt rm a b = (canonicalNaN fmt, flagNV)) ∧
    (∀ x, IsInf fmt a → IsNumber fmt b x → fpDiv fmt rm a b = (fpInf fmt (fpSign fmt a != fpSign fmt b), flagsNone)) ∧
    (∀ x, IsNumber fmt a x → IsInf fmt b → fpDiv fmt rm a b = (fpZero fmt (fpSign fmt a != fpSign fmt b), flagsNone)) ∧
    (IsInf fmt a → fpSqrt fmt rm a =
      if fpSign fmt a = true then (canonicalNaN fmt, flagNV) else (fpInf fmt false, flagsNone)) ∧
    (∀ (r : FpRes fmt) (fp fc : Bool), (r, fp, fc) ∈ [
        (fpMadd fmt rm a b c, false, false), (fpMsub fmt rm a b c, false, true),
        (fpNmsub fmt rm a b c, true, false), (fpNmadd fmt rm a b c, true, true)] →
      (InvalidProduct fmt a b → r = (canonicalNaN fmt, flagNV)) ∧
      (¬ InvalidProduct fmt a b → (fpIsNaN fmt a = true ∨ fpIsNaN fmt b = true ∨ fpIsNaN fmt c = true) →
        r = (canonicalNaN fmt, flagIf (fpIsSNaN fmt a || fpIsSNaN fmt b || fpIsSNaN fmt c) flagNV)) ∧
      (∀ x, InfiniteProduct fmt a b → IsNumber fmt c x →
        r = (fpInf fmt ((fpSign fmt a != fpSign fmt b) != fp), flagsNone)) ∧
      (InfiniteProduct fmt a b → IsInf fmt c →
        r = if ((fpSign fmt a != fpSign fmt b) != fp) = (fpSign fmt c != fc) then
            (fpInf fmt ((fpSign fmt a != fpSign fmt b) != fp), flagsNone)
          else (canonicalNaN fmt, flagNV)) ∧
      (∀ x y, IsNumber fmt a x → IsNumber fmt b y → IsInf fmt c → r = (fpInf fmt (fpSign fmt c != fc), flagsNone)))

/-- The conversions to an integer type clip to its range (46_f.md R600, Table 13.4): NaN and +infinity give the
greatest value, -infinity the least, with NV. Of a number, `r` is the integer it is rounded to in the mode: below the
range the least value with NV, above it the greatest with NV, else `r`, with NX exactly if it is not the number. What each
mode rounds to (R576) is stated from general knowledge (entry 26). -/
def Obligations.ConversionClips : Prop :=
  (intTyMin .w = -2 ^ 31 ∧ intTyMax .w = 2 ^ 31 - 1 ∧ intTyMin .wu = 0 ∧ intTyMax .wu = 2 ^ 32 - 1 ∧
    intTyMin .l = -2 ^ 63 ∧ intTyMax .l = 2 ^ 63 - 1 ∧ intTyMin .lu = 0 ∧ intTyMax .lu = 2 ^ 64 - 1) ∧
  ∀ (fmt : Fmt) (k : IntTy) (rm : Rm) (v : FpBits fmt),
    (∀ signalling, fpUnpack fmt v = .nan signalling → fpToIntVal fmt k rm v = (intTyMax k, flagNV)) ∧
    (fpUnpack fmt v = .inf false → fpToIntVal fmt k rm v = (intTyMax k, flagNV)) ∧
    (fpUnpack fmt v = .inf true → fpToIntVal fmt k rm v = (intTyMin k, flagNV)) ∧
    (intTyMin k ≤ (fpToIntVal fmt k rm v).1 ∧ (fpToIntVal fmt k rm v).1 ≤ intTyMax k) ∧
    (∀ neg m e r, fpUnpack fmt v = .num neg m e → r = signedMag neg (roundToGrid rm neg m e 0) →
      RoundsTo (fun y => ∃ n : ℤ, y = n) (fun y => ∃ n : ℤ, y = 2 * n) rm (numReal neg m e) (r : ℝ) ∧
      (offGrid m e 0 = true ↔ (r : ℝ) ≠ numReal neg m e) ∧
      (r < intTyMin k → fpToIntVal fmt k rm v = (intTyMin k, flagNV)) ∧
      (intTyMax k < r → fpToIntVal fmt k rm v = (intTyMax k, flagNV)) ∧
      (intTyMin k ≤ r → r ≤ intTyMax k → fpToIntVal fmt k rm v = (r, flagIf (offGrid m e 0) flagNX)))

/-! ### System and hint instructions -/

/-- ECALL, EBREAK and C.EBREAK take their exception: the record holds its name, the pc of the instruction and the
information, and nothing else changes (40_rv32i_base.md R321, R322; 60_exceptions.md R945, R946, R960; the record is
the decision D7 of the spec). -/
def Obligations.EnvironmentTraps : Prop :=
  ∀ s : State,
    exec .ecall s = .next (trapped .environmentCall 0 s) ∧
    exec .ebreak s = .next (trapped .breakpoint (curPc s) s) ∧
    exec .cEbreak s = .next (trapped .breakpoint (curPc s) s)

/-- NOP (40_rv32i_base.md R285): the word 0x00000013 is `addi x0, x0, 0` in every configuration, and running it
changes nothing but the pc and `instret`. -/
def Obligations.NopResult : Prop :=
  (∀ c : Cfg, decode c 0x00000013#32 = .instr (.addi 0 0 0)) ∧ encode (.addi 0 0 0) = 0x00000013#32 ∧
  ∀ s : State, ∃ t, exec (.addi 0 0 0) s = .next t ∧ Retired 4 s t ∧ KeptX s t ∧ KeptBeyondX s t

/-- FENCE, FENCE.TSO and the hints with rows of their own only retire (40_rv32i_base.md R315, R316; 42_zifencei_hints.md
R405 to R410, R415; 48_c.md R859): in one hart no effect on any register, flag or byte. -/
def Obligations.HintAndFenceResult : Prop :=
  ∀ (s : State) (fm pred succ : BitVec 4) (rs1 rd : RegNum) (imm : BitVec 6) (i : Instr) (len : Nat),
    (i, len) ∈ ([
      (.fence fm pred succ rs1 rd, 4), (.fenceTso, 4), (.pause, 4),
      (.ntlP1, 4), (.ntlPall, 4), (.ntlS1, 4), (.ntlAll, 4),
      (.cNop imm, 2), (.cNtlP1, 2), (.cNtlPall, 2), (.cNtlS1, 2), (.cNtlAll, 2)] : List (Instr × Nat)) →
    ∃ t, exec i s = .next t ∧ Retired len s t ∧ KeptX s t ∧ KeptBeyondX s t

/-- FENCE.I (42_zifencei_hints.md R400; 20_memory.md R120): after it the fetch of a byte of main memory returns what
a load returns; no register, flag or byte changes. That this holds of every write of the environment agent too, also one
no load has returned, is the model's choice (entry 21). Without it, a fetch returns what a load returns or a value listed
in `stale` (R120, D16); there every other instruction keeps what is listed and puts the value a changed byte had, and
none that a byte has not held: where the agent does not write, only the values before the instruction. -/
def Obligations.FenceInstructionResult : Prop :=
  (∀ (s : State) (imm : BitVec 12) (rs1 rd : RegNum),
    ∃ t, exec (.fenceI imm rs1 rd) s = .next t ∧ Retired 4 s t ∧
      (∀ a, isIo s.cfg a = false → fetchByte t a = readByte t a) ∧
      KeptX s t ∧ KeptF s t ∧ KeptStatus s t ∧ (∀ a, readByte t a = readByte s a) ∧ t.io = s.io ∧
      KeptReservation s t) ∧
  (∀ (s : State) (a : Nat), isIo s.cfg a = false → fetchByte s a = readByte s a ∨ (a, fetchByte s a) ∈ s.stale) ∧
  ∀ (i : Instr) (s t : State), exec i s = .next t → (∀ imm rs1 rd, i ≠ .fenceI imm rs1 rd) →
    StaleAfter s t (fun _ => s.cfg.agentWrites = true)

/-! ### Compressed instructions -/

/-- The compressed integer instructions (48_c.md R840 to R857): the value in the destination, the pc moved by 2,
nothing else changed. -/
def Obligations.CompressedIntegerResult : Prop :=
  ∀ (s : State) (rd rs2 : RegNum) (crd crs2 : CRegNum) (u8 : BitVec 8) (imm shamt : BitVec 6)
    (i : Instr) (d : RegNum) (v : Word),
    (i, d, v) ∈ ([
      (.cAddi4spn crd u8, cReg crd, readX 2 s + BitVec.ofNat 64 (4 * u8.toNat)),
      (.cAddi rd imm, rd, readX rd s + imm.signExtend 64),
      (.cAddiw rd imm, rd, ((readX rd s + imm.signExtend 64).setWidth 32).signExtend 64),
      (.cLi rd imm, rd, imm.signExtend 64),
      (.cAddi16sp imm, 2, readX 2 s + imm.signExtend 64 <<< 4),
      (.cLui rd imm, rd, imm.signExtend 64 <<< 12),
      (.cSrli crd shamt, cReg crd, aluAtXlen s.cfg.xlen (fun w a b => a >>> (b.toNat % w))
        (readX (cReg crd) s) (shamt.setWidth 64)),
      (.cSrai crd shamt, cReg crd, aluAtXlen s.cfg.xlen (fun w a b => a.sshiftRight (b.toNat % w))
        (readX (cReg crd) s) (shamt.setWidth 64)),
      (.cAndi crd imm, cReg crd, readX (cReg crd) s &&& imm.signExtend 64),
      (.cSub crd crs2, cReg crd, readX (cReg crd) s - readX (cReg crs2) s),
      (.cXor crd crs2, cReg crd, readX (cReg crd) s ^^^ readX (cReg crs2) s),
      (.cOr crd crs2, cReg crd, readX (cReg crd) s ||| readX (cReg crs2) s),
      (.cAnd crd crs2, cReg crd, readX (cReg crd) s &&& readX (cReg crs2) s),
      (.cSubw crd crs2, cReg crd, ((readX (cReg crd) s - readX (cReg crs2) s).setWidth 32).signExtend 64),
      (.cAddw crd crs2, cReg crd, ((readX (cReg crd) s + readX (cReg crs2) s).setWidth 32).signExtend 64),
      (.cSlli rd shamt, rd, aluAtXlen s.cfg.xlen (fun w a b => a <<< (b.toNat % w)) (readX rd s)
        (shamt.setWidth 64)),
      (.cMv rd rs2, rd, readX rs2 s),
      (.cAdd rd rs2, rd, readX rd s + readX rs2 s)] : List (Instr × RegNum × Word)) →
    ∃ t, exec i s = .next t ∧ Retired 2 s t ∧ readX d t = writtenX s.cfg.xlen d v ∧
      KeptXBut d s t ∧ KeptBeyondX s t

/-- A compressed instruction that is no control transfer has exactly the effect of the instruction it expands to,
but that the pc moves by 2; a trap is the expansion's (48_c.md R802, R803). -/
def Obligations.CompressedIsExpansion : Prop :=
  ∀ (s : State) (rd rs2 : RegNum) (crd crs1 : CRegNum) (u8 : BitVec 8) (imm u6 : BitVec 6) (u5 : BitVec 5)
    (ci i : Instr),
    (ci, i) ∈ ([
      (.cAddi4spn crd u8, .addi (cReg crd) 2 (BitVec.ofNat 12 (4 * u8.toNat))),
      (.cLw crd crs1 u5, .lw (cReg crd) (cReg crs1) (BitVec.ofNat 12 (4 * u5.toNat))),
      (.cLd crd crs1 u5, .ld (cReg crd) (cReg crs1) (BitVec.ofNat 12 (8 * u5.toNat))),
      (.cFlw crd crs1 u5, .flw (cReg crd) (cReg crs1) (BitVec.ofNat 12 (4 * u5.toNat))),
      (.cFld crd crs1 u5, .fld (cReg crd) (cReg crs1) (BitVec.ofNat 12 (8 * u5.toNat))),
      (.cSw crd crs1 u5, .sw (cReg crd) (cReg crs1) (BitVec.ofNat 12 (4 * u5.toNat))),
      (.cSd crd crs1 u5, .sd (cReg crd) (cReg crs1) (BitVec.ofNat 12 (8 * u5.toNat))),
      (.cFsw crd crs1 u5, .fsw (cReg crd) (cReg crs1) (BitVec.ofNat 12 (4 * u5.toNat))),
      (.cFsd crd crs1 u5, .fsd (cReg crd) (cReg crs1) (BitVec.ofNat 12 (8 * u5.toNat))),
      (.cNop 0, .addi 0 0 0),
      (.cAddi rd imm, .addi rd rd (imm.signExtend 12)),
      (.cAddiw rd imm, .addiw rd rd (imm.signExtend 12)),
      (.cLi rd imm, .addi rd 0 (imm.signExtend 12)),
      (.cAddi16sp imm, .addi 2 2 (imm.signExtend 12 <<< 4)),
      (.cLui rd imm, .lui rd (imm.signExtend 20)),
      (.cSrli crd u6, .srli (cReg crd) (cReg crd) u6),
      (.cSrai crd u6, .srai (cReg crd) (cReg crd) u6),
      (.cAndi crd imm, .andi (cReg crd) (cReg crd) (imm.signExtend 12)),
      (.cSub crd crs1, .sub (cReg crd) (cReg crd) (cReg crs1)),
      (.cXor crd crs1, .xor (cReg crd) (cReg crd) (cReg crs1)),
      (.cOr crd crs1, .or (cReg crd) (cReg crd) (cReg crs1)),
      (.cAnd crd crs1, .and (cReg crd) (cReg crd) (cReg crs1)),
      (.cSubw crd crs1, .subw (cReg crd) (cReg crd) (cReg crs1)),
      (.cAddw crd crs1, .addw (cReg crd) (cReg crd) (cReg crs1)),
      (.cSlli rd u6, .slli rd rd u6),
      (.cLwsp rd u6, .lw rd 2 (BitVec.ofNat 12 (4 * u6.toNat))),
      (.cLdsp rd u6, .ld rd 2 (BitVec.ofNat 12 (8 * u6.toNat))),
      (.cFlwsp rd u6, .flw rd 2 (BitVec.ofNat 12 (4 * u6.toNat))),
      (.cFldsp rd u6, .fld rd 2 (BitVec.ofNat 12 (8 * u6.toNat))),
      (.cSwsp rs2 u6, .sw rs2 2 (BitVec.ofNat 12 (4 * u6.toNat))),
      (.cSdsp rs2 u6, .sd rs2 2 (BitVec.ofNat 12 (8 * u6.toNat))),
      (.cFswsp rs2 u6, .fsw rs2 2 (BitVec.ofNat 12 (4 * u6.toNat))),
      (.cFsdsp rs2 u6, .fsd rs2 2 (BitVec.ofNat 12 (8 * u6.toNat))),
      (.cMv rd rs2, .add rd 0 rs2),
      (.cAdd rd rs2, .add rd rd rs2),
      (.cEbreak, .ebreak)] : List (Instr × Instr)) →
    ∃ t, exec i s = .next t ∧
      exec ci s = .next { t with
        pc := if t.instret = s.instret then t.pc else truncX s.cfg.xlen (curPc s + 2) }

/-! ### Encodings -/

/-- Decoding the encoding of a well-formed instruction gives it back, with every operand, in every configuration
(30_encoding.md R200 to R220; 48_c.md R804 to R860). -/
def Obligations.DecodeOfEncode : Prop :=
  ∀ (c : Cfg) (i : Instr), i.wf c = true → decode c (encode i) = .instr i

/-- What the decoder reads is well-formed, and encodes to the very bits it was read from; for a 16-bit instruction,
those of the first parcel (30_encoding.md R191, R220, R230). -/
def Obligations.EncodeOfDecode : Prop :=
  ∀ (c : Cfg) (w : InstrWord) (i : Instr), decode c w = .instr i →
    i.wf c = true ∧ encode i = if isCompressed w then (w.setWidth 16).setWidth 32 else w

/-- Undecodable words (30_encoding.md R194; 60_exceptions.md R946, R952). The two always-illegal patterns: no
configuration decodes them. That the zero pattern is fetched as 16 bits with C and as 32 bits without, and the pattern of
ones as 32 bits if the second parcel is ones too, and that the information is the word fetched, is the model's reading
(entry 15). A step that fetches any word the decoder rejects, reserved or of an absent extension, takes the
illegal-instruction exception with that word as information (decision D9 of the spec; entry 14). -/
def Obligations.AlwaysIllegal : Prop :=
  (∀ (c : Cfg) (w : InstrWord), w.setWidth 16 = 0#16 → decode c w = .rejected .allZeros) ∧
  (∀ c : Cfg, decode c (BitVec.allOnes 32) = .rejected .allOnes) ∧
  (∀ c : Cfg, secondParcel c 0 = if c.ext.c then .absent else .required) ∧
  (∀ c : Cfg, secondParcel c (BitVec.allOnes 16) = .onesOnly) ∧
  (∀ (s : State) (w : InstrWord) (why : Reject), s.trap = none → fetch (startStep s) = .word w →
    decode s.cfg w = .rejected why →
    step s = .next (trapped .illegalInstruction (truncX s.cfg.xlen (w.setWidth 64)) (startStep s)))

/-- A few words of the spec decode to the instructions it gives them for: the examples of the rules of
41_rv64i_rv32e_rv128i.md (R345), 42_zifencei_hints.md (R406), 43_m_zmmul.md, 44_a_zam.md, 46_f.md and 48_c.md. -/
def Obligations.DecodeWords : Prop :=
  decode Config.reset 0x0262D3B3#32 = .instr (.divu 7 5 6) ∧
  decode Config.reset 0x18C522AF#32 = .instr (.scW 5 10 12 0 0) ∧
  decode Config.reset 0x100532AF#32 = .instr (.lrD 5 10 0 0) ∧
  decode Config.reset 0x282081D3#32 = .instr (.fminS 3 1 2) ∧
  decode Config.reset 0xE00092D3#32 = .instr (.fclassS 5 1) ∧
  decode Config.reset 0x0012D31B#32 = .instr (.srliw 6 5 1) ∧
  decode Config.reset 0x00200033#32 = .instr .ntlP1 ∧
  decode Config.reset 0x00009002#32 = .instr .cEbreak

/-! ### Steps -/

/-- What a step does before its instruction or the trap it finds: no register, flag, pc or trap changes; `draw` goes up
by one; `cycle`, `time` and the counting counters advance by free amounts (10_state.md R61, R62, R64; that all of them
advance here, once a step, and the index of the free values are the model's choice, entries 17, 33); and, where the
platform lets the environment agent write main memory, it has its turn (20_memory.md R126; decision D5 of the spec; that
its writes fall here, and between the memory operations of one access, is the model's choice, entry 37). What a turn of
the agent leaves: its writes, what they do to the reservation, and the end of the promise to a constrained loop whose
LR's reservation set they touch (44_a_zam.md R465, R467). -/
def Obligations.StepStart : Prop :=
  ∀ s : State,
    KeptX s (startStep s) ∧ KeptF s (startStep s) ∧ KeptFcsr s (startStep s) ∧ (startStep s).cfg = s.cfg ∧
    (startStep s).pc = s.pc ∧ (startStep s).instret = s.instret ∧ (startStep s).trap = s.trap ∧
    (startStep s).draw = s.draw + 1 ∧ (startStep s).cycle = s.cycle + Config.cycleAdvance s.draw ∧
    (startStep s).time = s.time + Config.timeAdvance s.draw ∧
    (∀ n : Fin 29, (startStep s).hpm[n] = match s.cfg.hpm[n] with
      | .counting => s.hpm[n] + Config.hpmAdvance n.val s.draw
      | .constant _ => s.hpm[n]
      | .unimplemented => s.hpm[n]) ∧
    (s.cfg.agentWrites = false →
      (startStep s).mem = s.mem ∧ (startStep s).stale = s.stale ∧ (startStep s).io = s.io ∧
      (startStep s).reservation = s.reservation ∧ (startStep s).watch = s.watch) ∧
    (s.cfg.agentWrites = true →
      AgentWrote 0 ((Config.agentWrites (s.draw + 1) 0).map (fun c => (c.1 % 2 ^ s.cfg.xlen.bits, c.2)))
        (tick s) (startStep s)) ∧
    ∀ turn, AgentTurn turn s (agentTurn turn s)

/-- A step runs the decoded instruction: when no trap is pending and, once the step has started (`StepStart`), the bytes
of an instruction lie at the pc in executable main memory, not stored to since the last FENCE.I, the step is the
instruction's effect on that state (30_encoding.md R191, R195), but for the model's own note of a constrained LR/SC loop
(entry 36). What the fetch of a byte stored to since the last FENCE.I may return is in `FenceInstructionResult`; fetches of
a device's bytes, which are free values, are not stated; nor is what the start of the step does, which is the model's choice in part (entries 17, 33, 37). -/
def Obligations.StepRunsDecoded : Prop :=
  ∀ (s u : State) (b0 b1 b2 b3 : Byte) (i : Instr),
    s.trap = none → u = startStep s →
    (∀ k, k < wordLen (wordOfBytes b0 b1 b2 b3) →
      isIo s.cfg (byteAddr s.cfg (curPc s) k) = false ∧
      fetchPermitted s.cfg (byteAddr s.cfg (curPc s) k) = true ∧
      staleValues u (byteAddr s.cfg (curPc s) k) = [] ∧
      readByte u (byteAddr s.cfg (curPc s) k) = [b0, b1, b2, b3].getD k 0) →
    decode s.cfg (wordOfBytes b0 b1 b2 b3) = .instr i →
    step s = exec i (observe i u) ∧ observe i u = { u with watch := (observe i u).watch }

/-- A fetch that fails is an instruction access fault whose `epc` and information are the pc of the instruction
(60_exceptions.md R951): a byte of the first parcel is in no region that permits it; or the first parcel is that of a
32-bit instruction and a byte of the second is in none. -/
def Obligations.FetchFaults : Prop :=
  ∀ s : State, s.trap = none →
    ((∃ k, k < 2 ∧ fetchPermitted s.cfg (byteAddr s.cfg (curPc s) k) = false) →
      step s = .next (trapped .instrAccessFault (curPc s) (startStep s))) ∧
    (∀ p : Parcel, fetchParcel (startStep s) (curPc s) = some p →
      p.extractLsb' 0 2 = 3#2 → p.extractLsb' 2 3 ≠ 7#3 →
      (∃ k, 2 ≤ k ∧ k < 4 ∧ fetchPermitted s.cfg (byteAddr s.cfg (curPc s) k) = false) →
      step s = .next (trapped .instrAccessFault (curPc s) (startStep s)))

/-- What becomes of a pending trap (60_exceptions.md R945, decision D7 of the spec): under `fatal` the hart stops with
the record; under `handled` the environment stops it, or resumes it with the registers it supplies and no trap pending,
its writes those of the environment agent. That the pc supplied is rounded down to IALIGN is the model's choice (entry
12), and so is the index at which the handler is asked (entry 33) and that registers are cut to their widths (entry
12); a trap ends the promise to a constrained loop (44_a_zam.md R467). -/
def Obligations.PendingTrapResolved : Prop :=
  ∀ (s u : State) (r : TrapRecord), s.trap = some r → u = startStep s →
    (s.cfg.trapPolicy = .fatal → step s = .fault (.fatalTrap r)) ∧
    (s.cfg.trapPolicy = .handled →
      Config.trapHandler (s.draw + 1) (hartRegs u) u.mem r = none → step s = .fault (.handlerStopped r)) ∧
    (∀ reply, s.cfg.trapPolicy = .handled →
      Config.trapHandler (s.draw + 1) (hartRegs u) u.mem r = some reply →
      ∃ t, step s = .next t ∧ t.trap = none ∧ t.cfg = s.cfg ∧ t.frm = reply.regs.frm ∧
        t.fflags = reply.regs.fflags ∧ t.instret = s.instret ∧ KeptCounters u t ∧ t.draw = s.draw + 1 ∧
        t.watch = none ∧
        t.pc.toNat = (truncX s.cfg.xlen reply.regs.pc).toNat / ialignBytes s.cfg * ialignBytes s.cfg ∧
        (∀ q, q ≠ 0 → readX q t = truncX s.cfg.xlen (reply.regs.x[q.toNat]'(q.isLt))) ∧
        (∀ q, readF q t = ((reply.regs.f[q.toNat]'(q.isLt)).setWidth (flen s.cfg)).setWidth 128) ∧
        AgentWrote 1 (reply.writes.map (fun c => (c.1 % 2 ^ s.cfg.xlen.bits, c.2))) u t)

/-- Every instruction either retires, with no trap taken and one more instruction counted, or takes exactly one
exception that changes nothing but the record (10_state.md R63; 60_exceptions.md R945, R958): none stops the machine. -/
def Obligations.EveryInstructionRetiresOrTraps : Prop :=
  ∀ (i : Instr) (s : State), ∃ t, exec i s = .next t ∧
    ((t.instret = s.instret + 1 ∧ t.trap = s.trap ∧ t.cycle = s.cycle ∧ t.time = s.time ∧ t.hpm = s.hpm) ∨
      ∃ e info, t = trapped e info s)

/-- Every step keeps the invariant (20_memory.md R90; 10_state.md R41, R45, R47, R55, R66; 60_exceptions.md
R945): memory canonical and inside the address space, the pc aligned, the registers within their widths, the reservation set
with what was loaded, a constrained loop within its bound (44_a_zam.md R467; the bound is the model's, entry 36), a
pending trap recorded at the pc. -/
def Obligations.StepKeepsInvariant : Prop :=
  ∀ s t : State, s.Inv → step s = .next t → t.Inv

/-- Every launch state the spec allows satisfies the invariant (70_reset_and_hazards.md R990), and so does the state at
reset, whose values are the model's choices (entries 2 to 5). -/
def Obligations.ResetInvariant : Prop :=
  (∀ (c : Cfg) (l : Launch), l.Admitted c → (State.launch c l).Inv) ∧ State.reset.Inv

/-- The state at launch: the parameters where they belong (registers, pc, flags, counters, memory), no trap, no reservation, no constrained loop, nothing stored
that a fetch could miss, nothing delivered (70_reset_and_hazards.md R990); the index of the free values is 0 (the model's,
entry 33). At reset, every register and counter reads 0: the pc, the zeros in the registers, counters and memory and the
configuration are the model's choices (R990 leaves them to the environment; entries 2 to 5). -/
def Obligations.ResetState : Prop :=
  (∀ (c : Cfg) (l : Launch), (State.launch c l).trap = none ∧ (State.launch c l).reservation = none ∧
    (State.launch c l).watch = none ∧ (State.launch c l).stale = [] ∧ (State.launch c l).io = [] ∧
    (State.launch c l).pc = l.entry ∧ (State.launch c l).x = l.x ∧ (State.launch c l).f = l.f ∧
    (State.launch c l).mem = l.mem ∧ (State.launch c l).frm = l.frm ∧ (State.launch c l).fflags = l.fflags ∧
    (State.launch c l).cycle = l.cycle ∧ (State.launch c l).time = l.time ∧ (State.launch c l).instret = l.instret ∧
    (State.launch c l).hpm = l.hpm ∧ (State.launch c l).draw = 0 ∧ (State.launch c l).cfg = c) ∧
  State.reset.trap = none ∧ State.reset.reservation = none ∧ State.reset.stale = [] ∧
  State.reset.mem = [] ∧ curPc State.reset = 0 ∧ fcsrValue State.reset = 0 ∧
  State.reset.cycle = 0 ∧ State.reset.time = 0 ∧ State.reset.instret = 0 ∧ (∀ n : Fin 29, State.reset.hpm[n] = 0) ∧
  State.reset.draw = 0 ∧ State.reset.io = [] ∧ State.reset.watch = none ∧
  (∀ r, readX r State.reset = 0) ∧ (∀ r, readF r State.reset = 0) ∧ State.reset.cfg.wf = true

end Statements
end

