-- ==== Sys2Proof/Laws/State.lean ====
section
/-! SUPPORT. What each update leaves alone: one lemma per field per update, so that no later proof unfolds a
record update. -/

namespace Sys2Proof.Machine

/-! ### A trap taken -/

@[simp] theorem trapped_cfg (e : Exn) (i : Word) (s : State) : (trapped e i s).cfg = s.cfg := rfl

@[simp] theorem trapped_x (e : Exn) (i : Word) (s : State) : (trapped e i s).x = s.x := rfl

@[simp] theorem trapped_pc (e : Exn) (i : Word) (s : State) : (trapped e i s).pc = s.pc := rfl

@[simp] theorem trapped_f (e : Exn) (i : Word) (s : State) : (trapped e i s).f = s.f := rfl

@[simp] theorem trapped_frm (e : Exn) (i : Word) (s : State) : (trapped e i s).frm = s.frm := rfl

@[simp] theorem trapped_fflags (e : Exn) (i : Word) (s : State) : (trapped e i s).fflags = s.fflags := rfl

@[simp] theorem trapped_cycle (e : Exn) (i : Word) (s : State) : (trapped e i s).cycle = s.cycle := rfl

@[simp] theorem trapped_time (e : Exn) (i : Word) (s : State) : (trapped e i s).time = s.time := rfl

@[simp] theorem trapped_instret (e : Exn) (i : Word) (s : State) : (trapped e i s).instret = s.instret := rfl

@[simp] theorem trapped_hpm (e : Exn) (i : Word) (s : State) : (trapped e i s).hpm = s.hpm := rfl

@[simp] theorem trapped_reservation (e : Exn) (i : Word) (s : State) : (trapped e i s).reservation = s.reservation := rfl

@[simp] theorem trapped_watch (e : Exn) (i : Word) (s : State) : (trapped e i s).watch = s.watch := rfl

@[simp] theorem trapped_mem (e : Exn) (i : Word) (s : State) : (trapped e i s).mem = s.mem := rfl

@[simp] theorem trapped_stale (e : Exn) (i : Word) (s : State) : (trapped e i s).stale = s.stale := rfl

@[simp] theorem trapped_io (e : Exn) (i : Word) (s : State) : (trapped e i s).io = s.io := rfl

@[simp] theorem trapped_draw (e : Exn) (i : Word) (s : State) : (trapped e i s).draw = s.draw := rfl

@[simp] theorem trapped_trap (e : Exn) (i : Word) (s : State) :
    (trapped e i s).trap = some { exn := e, epc := curPc s, info := i } := rfl

/-! ### An integer register written -/

@[simp] theorem writeX_cfg (r : RegNum) (v : Word) (s : State) : (writeX r v s).cfg = s.cfg := by
  unfold writeX; split <;> rfl

@[simp] theorem writeX_pc (r : RegNum) (v : Word) (s : State) : (writeX r v s).pc = s.pc := by
  unfold writeX; split <;> rfl

@[simp] theorem writeX_f (r : RegNum) (v : Word) (s : State) : (writeX r v s).f = s.f := by
  unfold writeX; split <;> rfl

@[simp] theorem writeX_frm (r : RegNum) (v : Word) (s : State) : (writeX r v s).frm = s.frm := by
  unfold writeX; split <;> rfl

@[simp] theorem writeX_fflags (r : RegNum) (v : Word) (s : State) : (writeX r v s).fflags = s.fflags := by
  unfold writeX; split <;> rfl

@[simp] theorem writeX_cycle (r : RegNum) (v : Word) (s : State) : (writeX r v s).cycle = s.cycle := by
  unfold writeX; split <;> rfl

@[simp] theorem writeX_time (r : RegNum) (v : Word) (s : State) : (writeX r v s).time = s.time := by
  unfold writeX; split <;> rfl

@[simp] theorem writeX_instret (r : RegNum) (v : Word) (s : State) : (writeX r v s).instret = s.instret := by
  unfold writeX; split <;> rfl

@[simp] theorem writeX_hpm (r : RegNum) (v : Word) (s : State) : (writeX r v s).hpm = s.hpm := by
  unfold writeX; split <;> rfl

@[simp] theorem writeX_reservation (r : RegNum) (v : Word) (s : State) : (writeX r v s).reservation = s.reservation := by
  unfold writeX; split <;> rfl

@[simp] theorem writeX_watch (r : RegNum) (v : Word) (s : State) : (writeX r v s).watch = s.watch := by
  unfold writeX; split <;> rfl

@[simp] theorem writeX_mem (r : RegNum) (v : Word) (s : State) : (writeX r v s).mem = s.mem := by
  unfold writeX; split <;> rfl

@[simp] theorem writeX_stale (r : RegNum) (v : Word) (s : State) : (writeX r v s).stale = s.stale := by
  unfold writeX; split <;> rfl

@[simp] theorem writeX_trap (r : RegNum) (v : Word) (s : State) : (writeX r v s).trap = s.trap := by
  unfold writeX; split <;> rfl

@[simp] theorem writeX_io (r : RegNum) (v : Word) (s : State) : (writeX r v s).io = s.io := by
  unfold writeX; split <;> rfl

@[simp] theorem writeX_draw (r : RegNum) (v : Word) (s : State) : (writeX r v s).draw = s.draw := by
  unfold writeX; split <;> rfl

/-! ### A floating-point register written -/

@[simp] theorem writeF_cfg (r : RegNum) (v : FWord) (s : State) : (writeF r v s).cfg = s.cfg := rfl

@[simp] theorem writeF_x (r : RegNum) (v : FWord) (s : State) : (writeF r v s).x = s.x := rfl

@[simp] theorem writeF_pc (r : RegNum) (v : FWord) (s : State) : (writeF r v s).pc = s.pc := rfl

@[simp] theorem writeF_frm (r : RegNum) (v : FWord) (s : State) : (writeF r v s).frm = s.frm := rfl

@[simp] theorem writeF_fflags (r : RegNum) (v : FWord) (s : State) : (writeF r v s).fflags = s.fflags := rfl

@[simp] theorem writeF_cycle (r : RegNum) (v : FWord) (s : State) : (writeF r v s).cycle = s.cycle := rfl

@[simp] theorem writeF_time (r : RegNum) (v : FWord) (s : State) : (writeF r v s).time = s.time := rfl

@[simp] theorem writeF_instret (r : RegNum) (v : FWord) (s : State) : (writeF r v s).instret = s.instret := rfl

@[simp] theorem writeF_hpm (r : RegNum) (v : FWord) (s : State) : (writeF r v s).hpm = s.hpm := rfl

@[simp] theorem writeF_reservation (r : RegNum) (v : FWord) (s : State) : (writeF r v s).reservation = s.reservation := rfl

@[simp] theorem writeF_watch (r : RegNum) (v : FWord) (s : State) : (writeF r v s).watch = s.watch := rfl

@[simp] theorem writeF_mem (r : RegNum) (v : FWord) (s : State) : (writeF r v s).mem = s.mem := rfl

@[simp] theorem writeF_stale (r : RegNum) (v : FWord) (s : State) : (writeF r v s).stale = s.stale := rfl

@[simp] theorem writeF_trap (r : RegNum) (v : FWord) (s : State) : (writeF r v s).trap = s.trap := rfl

@[simp] theorem writeF_io (r : RegNum) (v : FWord) (s : State) : (writeF r v s).io = s.io := rfl

@[simp] theorem writeF_draw (r : RegNum) (v : FWord) (s : State) : (writeF r v s).draw = s.draw := rfl

/-! ### A boxed value written -/

@[simp] theorem writeFBoxed_cfg (t : Fmt) (r : RegNum) (v : FpBits t) (s : State) : (writeFBoxed t r v s).cfg = s.cfg := rfl

@[simp] theorem writeFBoxed_x (t : Fmt) (r : RegNum) (v : FpBits t) (s : State) : (writeFBoxed t r v s).x = s.x := rfl

@[simp] theorem writeFBoxed_pc (t : Fmt) (r : RegNum) (v : FpBits t) (s : State) : (writeFBoxed t r v s).pc = s.pc := rfl

@[simp] theorem writeFBoxed_frm (t : Fmt) (r : RegNum) (v : FpBits t) (s : State) : (writeFBoxed t r v s).frm = s.frm := rfl

@[simp] theorem writeFBoxed_fflags (t : Fmt) (r : RegNum) (v : FpBits t) (s : State) : (writeFBoxed t r v s).fflags = s.fflags := rfl

@[simp] theorem writeFBoxed_cycle (t : Fmt) (r : RegNum) (v : FpBits t) (s : State) : (writeFBoxed t r v s).cycle = s.cycle := rfl

@[simp] theorem writeFBoxed_time (t : Fmt) (r : RegNum) (v : FpBits t) (s : State) : (writeFBoxed t r v s).time = s.time := rfl

@[simp] theorem writeFBoxed_instret (t : Fmt) (r : RegNum) (v : FpBits t) (s : State) : (writeFBoxed t r v s).instret = s.instret := rfl

@[simp] theorem writeFBoxed_hpm (t : Fmt) (r : RegNum) (v : FpBits t) (s : State) : (writeFBoxed t r v s).hpm = s.hpm := rfl

@[simp] theorem writeFBoxed_reservation (t : Fmt) (r : RegNum) (v : FpBits t) (s : State) : (writeFBoxed t r v s).reservation = s.reservation := rfl

@[simp] theorem writeFBoxed_watch (t : Fmt) (r : RegNum) (v : FpBits t) (s : State) : (writeFBoxed t r v s).watch = s.watch := rfl

@[simp] theorem writeFBoxed_mem (t : Fmt) (r : RegNum) (v : FpBits t) (s : State) : (writeFBoxed t r v s).mem = s.mem := rfl

@[simp] theorem writeFBoxed_stale (t : Fmt) (r : RegNum) (v : FpBits t) (s : State) : (writeFBoxed t r v s).stale = s.stale := rfl

@[simp] theorem writeFBoxed_trap (t : Fmt) (r : RegNum) (v : FpBits t) (s : State) : (writeFBoxed t r v s).trap = s.trap := rfl

@[simp] theorem writeFBoxed_io (t : Fmt) (r : RegNum) (v : FpBits t) (s : State) : (writeFBoxed t r v s).io = s.io := rfl

@[simp] theorem writeFBoxed_draw (t : Fmt) (r : RegNum) (v : FpBits t) (s : State) : (writeFBoxed t r v s).draw = s.draw := rfl

/-! ### A floating-point result written -/

@[simp] theorem writeFp_cfg (t : Fmt) (r : RegNum) (v : FpBits t) (s : State) : (writeFp t r v s).cfg = s.cfg := by
  unfold writeFp; repeat' split
  all_goals simp

@[simp] theorem writeFp_pc (t : Fmt) (r : RegNum) (v : FpBits t) (s : State) : (writeFp t r v s).pc = s.pc := by
  unfold writeFp; repeat' split
  all_goals simp

@[simp] theorem writeFp_frm (t : Fmt) (r : RegNum) (v : FpBits t) (s : State) : (writeFp t r v s).frm = s.frm := by
  unfold writeFp; repeat' split
  all_goals simp

@[simp] theorem writeFp_fflags (t : Fmt) (r : RegNum) (v : FpBits t) (s : State) : (writeFp t r v s).fflags = s.fflags := by
  unfold writeFp; repeat' split
  all_goals simp

@[simp] theorem writeFp_cycle (t : Fmt) (r : RegNum) (v : FpBits t) (s : State) : (writeFp t r v s).cycle = s.cycle := by
  unfold writeFp; repeat' split
  all_goals simp

@[simp] theorem writeFp_time (t : Fmt) (r : RegNum) (v : FpBits t) (s : State) : (writeFp t r v s).time = s.time := by
  unfold writeFp; repeat' split
  all_goals simp

@[simp] theorem writeFp_instret (t : Fmt) (r : RegNum) (v : FpBits t) (s : State) : (writeFp t r v s).instret = s.instret := by
  unfold writeFp; repeat' split
  all_goals simp

@[simp] theorem writeFp_hpm (t : Fmt) (r : RegNum) (v : FpBits t) (s : State) : (writeFp t r v s).hpm = s.hpm := by
  unfold writeFp; repeat' split
  all_goals simp

@[simp] theorem writeFp_reservation (t : Fmt) (r : RegNum) (v : FpBits t) (s : State) : (writeFp t r v s).reservation = s.reservation := by
  unfold writeFp; repeat' split
  all_goals simp

@[simp] theorem writeFp_watch (t : Fmt) (r : RegNum) (v : FpBits t) (s : State) : (writeFp t r v s).watch = s.watch := by
  unfold writeFp; repeat' split
  all_goals simp

@[simp] theorem writeFp_mem (t : Fmt) (r : RegNum) (v : FpBits t) (s : State) : (writeFp t r v s).mem = s.mem := by
  unfold writeFp; repeat' split
  all_goals simp

@[simp] theorem writeFp_stale (t : Fmt) (r : RegNum) (v : FpBits t) (s : State) : (writeFp t r v s).stale = s.stale := by
  unfold writeFp; repeat' split
  all_goals simp

@[simp] theorem writeFp_trap (t : Fmt) (r : RegNum) (v : FpBits t) (s : State) : (writeFp t r v s).trap = s.trap := by
  unfold writeFp; repeat' split
  all_goals simp

@[simp] theorem writeFp_io (t : Fmt) (r : RegNum) (v : FpBits t) (s : State) : (writeFp t r v s).io = s.io := by
  unfold writeFp; repeat' split
  all_goals simp

@[simp] theorem writeFp_draw (t : Fmt) (r : RegNum) (v : FpBits t) (s : State) : (writeFp t r v s).draw = s.draw := by
  unfold writeFp; repeat' split
  all_goals simp

/-! ### Flags accrued -/

@[simp] theorem accrue_cfg (m : FpFlags) (s : State) : (accrue m s).cfg = s.cfg := rfl

@[simp] theorem accrue_x (m : FpFlags) (s : State) : (accrue m s).x = s.x := rfl

@[simp] theorem accrue_pc (m : FpFlags) (s : State) : (accrue m s).pc = s.pc := rfl

@[simp] theorem accrue_f (m : FpFlags) (s : State) : (accrue m s).f = s.f := rfl

@[simp] theorem accrue_frm (m : FpFlags) (s : State) : (accrue m s).frm = s.frm := rfl

@[simp] theorem accrue_cycle (m : FpFlags) (s : State) : (accrue m s).cycle = s.cycle := rfl

@[simp] theorem accrue_time (m : FpFlags) (s : State) : (accrue m s).time = s.time := rfl

@[simp] theorem accrue_instret (m : FpFlags) (s : State) : (accrue m s).instret = s.instret := rfl

@[simp] theorem accrue_hpm (m : FpFlags) (s : State) : (accrue m s).hpm = s.hpm := rfl

@[simp] theorem accrue_reservation (m : FpFlags) (s : State) : (accrue m s).reservation = s.reservation := rfl

@[simp] theorem accrue_watch (m : FpFlags) (s : State) : (accrue m s).watch = s.watch := rfl

@[simp] theorem accrue_mem (m : FpFlags) (s : State) : (accrue m s).mem = s.mem := rfl

@[simp] theorem accrue_stale (m : FpFlags) (s : State) : (accrue m s).stale = s.stale := rfl

@[simp] theorem accrue_trap (m : FpFlags) (s : State) : (accrue m s).trap = s.trap := rfl

@[simp] theorem accrue_io (m : FpFlags) (s : State) : (accrue m s).io = s.io := rfl

@[simp] theorem accrue_draw (m : FpFlags) (s : State) : (accrue m s).draw = s.draw := rfl

@[simp] theorem accrue_fflags (m : FpFlags) (s : State) : (accrue m s).fflags = s.fflags ||| m := rfl

/-! ### `fcsr` written -/

@[simp] theorem setFcsr_cfg (v : Word) (s : State) : (setFcsr v s).cfg = s.cfg := rfl

@[simp] theorem setFcsr_x (v : Word) (s : State) : (setFcsr v s).x = s.x := rfl

@[simp] theorem setFcsr_pc (v : Word) (s : State) : (setFcsr v s).pc = s.pc := rfl

@[simp] theorem setFcsr_f (v : Word) (s : State) : (setFcsr v s).f = s.f := rfl

@[simp] theorem setFcsr_cycle (v : Word) (s : State) : (setFcsr v s).cycle = s.cycle := rfl

@[simp] theorem setFcsr_time (v : Word) (s : State) : (setFcsr v s).time = s.time := rfl

@[simp] theorem setFcsr_instret (v : Word) (s : State) : (setFcsr v s).instret = s.instret := rfl

@[simp] theorem setFcsr_hpm (v : Word) (s : State) : (setFcsr v s).hpm = s.hpm := rfl

@[simp] theorem setFcsr_reservation (v : Word) (s : State) : (setFcsr v s).reservation = s.reservation := rfl

@[simp] theorem setFcsr_watch (v : Word) (s : State) : (setFcsr v s).watch = s.watch := rfl

@[simp] theorem setFcsr_mem (v : Word) (s : State) : (setFcsr v s).mem = s.mem := rfl

@[simp] theorem setFcsr_stale (v : Word) (s : State) : (setFcsr v s).stale = s.stale := rfl

@[simp] theorem setFcsr_trap (v : Word) (s : State) : (setFcsr v s).trap = s.trap := rfl

@[simp] theorem setFcsr_io (v : Word) (s : State) : (setFcsr v s).io = s.io := rfl

@[simp] theorem setFcsr_draw (v : Word) (s : State) : (setFcsr v s).draw = s.draw := rfl

/-! ### A main-memory byte written -/

@[simp] theorem setMainByte_cfg (a : Nat) (v : Byte) (s : State) : (setMainByte a v s).cfg = s.cfg := rfl

@[simp] theorem setMainByte_x (a : Nat) (v : Byte) (s : State) : (setMainByte a v s).x = s.x := rfl

@[simp] theorem setMainByte_pc (a : Nat) (v : Byte) (s : State) : (setMainByte a v s).pc = s.pc := rfl

@[simp] theorem setMainByte_f (a : Nat) (v : Byte) (s : State) : (setMainByte a v s).f = s.f := rfl

@[simp] theorem setMainByte_frm (a : Nat) (v : Byte) (s : State) : (setMainByte a v s).frm = s.frm := rfl

@[simp] theorem setMainByte_fflags (a : Nat) (v : Byte) (s : State) : (setMainByte a v s).fflags = s.fflags := rfl

@[simp] theorem setMainByte_cycle (a : Nat) (v : Byte) (s : State) : (setMainByte a v s).cycle = s.cycle := rfl

@[simp] theorem setMainByte_time (a : Nat) (v : Byte) (s : State) : (setMainByte a v s).time = s.time := rfl

@[simp] theorem setMainByte_instret (a : Nat) (v : Byte) (s : State) : (setMainByte a v s).instret = s.instret := rfl

@[simp] theorem setMainByte_hpm (a : Nat) (v : Byte) (s : State) : (setMainByte a v s).hpm = s.hpm := rfl

@[simp] theorem setMainByte_reservation (a : Nat) (v : Byte) (s : State) : (setMainByte a v s).reservation = s.reservation := rfl

@[simp] theorem setMainByte_watch (a : Nat) (v : Byte) (s : State) : (setMainByte a v s).watch = s.watch := rfl

@[simp] theorem setMainByte_trap (a : Nat) (v : Byte) (s : State) : (setMainByte a v s).trap = s.trap := rfl

@[simp] theorem setMainByte_io (a : Nat) (v : Byte) (s : State) : (setMainByte a v s).io = s.io := rfl

@[simp] theorem setMainByte_draw (a : Nat) (v : Byte) (s : State) : (setMainByte a v s).draw = s.draw := rfl

/-! ### A read delivered to devices -/

@[simp] theorem noteReads_cfg (l : List Nat) (s : State) : (noteReads l s).cfg = s.cfg := by
  unfold noteReads; dsimp only; split <;> rfl

@[simp] theorem noteReads_x (l : List Nat) (s : State) : (noteReads l s).x = s.x := by
  unfold noteReads; dsimp only; split <;> rfl

@[simp] theorem noteReads_pc (l : List Nat) (s : State) : (noteReads l s).pc = s.pc := by
  unfold noteReads; dsimp only; split <;> rfl

@[simp] theorem noteReads_f (l : List Nat) (s : State) : (noteReads l s).f = s.f := by
  unfold noteReads; dsimp only; split <;> rfl

@[simp] theorem noteReads_frm (l : List Nat) (s : State) : (noteReads l s).frm = s.frm := by
  unfold noteReads; dsimp only; split <;> rfl

@[simp] theorem noteReads_fflags (l : List Nat) (s : State) : (noteReads l s).fflags = s.fflags := by
  unfold noteReads; dsimp only; split <;> rfl

@[simp] theorem noteReads_cycle (l : List Nat) (s : State) : (noteReads l s).cycle = s.cycle := by
  unfold noteReads; dsimp only; split <;> rfl

@[simp] theorem noteReads_time (l : List Nat) (s : State) : (noteReads l s).time = s.time := by
  unfold noteReads; dsimp only; split <;> rfl

@[simp] theorem noteReads_instret (l : List Nat) (s : State) : (noteReads l s).instret = s.instret := by
  unfold noteReads; dsimp only; split <;> rfl

@[simp] theorem noteReads_hpm (l : List Nat) (s : State) : (noteReads l s).hpm = s.hpm := by
  unfold noteReads; dsimp only; split <;> rfl

@[simp] theorem noteReads_reservation (l : List Nat) (s : State) : (noteReads l s).reservation = s.reservation := by
  unfold noteReads; dsimp only; split <;> rfl

@[simp] theorem noteReads_watch (l : List Nat) (s : State) : (noteReads l s).watch = s.watch := by
  unfold noteReads; dsimp only; split <;> rfl

@[simp] theorem noteReads_mem (l : List Nat) (s : State) : (noteReads l s).mem = s.mem := by
  unfold noteReads; dsimp only; split <;> rfl

@[simp] theorem noteReads_stale (l : List Nat) (s : State) : (noteReads l s).stale = s.stale := by
  unfold noteReads; dsimp only; split <;> rfl

@[simp] theorem noteReads_trap (l : List Nat) (s : State) : (noteReads l s).trap = s.trap := by
  unfold noteReads; dsimp only; split <;> rfl

@[simp] theorem noteReads_draw (l : List Nat) (s : State) : (noteReads l s).draw = s.draw := by
  unfold noteReads; dsimp only; split <;> rfl

/-! ### A read of consecutive bytes delivered to devices -/

@[simp] theorem noteRead_cfg (a : Word) (n : Nat) (s : State) : (noteRead a n s).cfg = s.cfg := by
  simp [noteRead]

@[simp] theorem noteRead_x (a : Word) (n : Nat) (s : State) : (noteRead a n s).x = s.x := by
  simp [noteRead]

@[simp] theorem noteRead_pc (a : Word) (n : Nat) (s : State) : (noteRead a n s).pc = s.pc := by
  simp [noteRead]

@[simp] theorem noteRead_f (a : Word) (n : Nat) (s : State) : (noteRead a n s).f = s.f := by
  simp [noteRead]

@[simp] theorem noteRead_frm (a : Word) (n : Nat) (s : State) : (noteRead a n s).frm = s.frm := by
  simp [noteRead]

@[simp] theorem noteRead_fflags (a : Word) (n : Nat) (s : State) : (noteRead a n s).fflags = s.fflags := by
  simp [noteRead]

@[simp] theorem noteRead_cycle (a : Word) (n : Nat) (s : State) : (noteRead a n s).cycle = s.cycle := by
  simp [noteRead]

@[simp] theorem noteRead_time (a : Word) (n : Nat) (s : State) : (noteRead a n s).time = s.time := by
  simp [noteRead]

@[simp] theorem noteRead_instret (a : Word) (n : Nat) (s : State) : (noteRead a n s).instret = s.instret := by
  simp [noteRead]

@[simp] theorem noteRead_hpm (a : Word) (n : Nat) (s : State) : (noteRead a n s).hpm = s.hpm := by
  simp [noteRead]

@[simp] theorem noteRead_reservation (a : Word) (n : Nat) (s : State) : (noteRead a n s).reservation = s.reservation := by
  simp [noteRead]

@[simp] theorem noteRead_watch (a : Word) (n : Nat) (s : State) : (noteRead a n s).watch = s.watch := by
  simp [noteRead]

@[simp] theorem noteRead_mem (a : Word) (n : Nat) (s : State) : (noteRead a n s).mem = s.mem := by
  simp [noteRead]

@[simp] theorem noteRead_stale (a : Word) (n : Nat) (s : State) : (noteRead a n s).stale = s.stale := by
  simp [noteRead]

@[simp] theorem noteRead_trap (a : Word) (n : Nat) (s : State) : (noteRead a n s).trap = s.trap := by
  simp [noteRead]

@[simp] theorem noteRead_draw (a : Word) (n : Nat) (s : State) : (noteRead a n s).draw = s.draw := by
  simp [noteRead]

/-! ### A write delivered to devices -/

@[simp] theorem noteWrite_cfg (l : List Host.Cell) (s : State) : (noteWrite l s).cfg = s.cfg := by
  unfold noteWrite; dsimp only; split <;> rfl

@[simp] theorem noteWrite_x (l : List Host.Cell) (s : State) : (noteWrite l s).x = s.x := by
  unfold noteWrite; dsimp only; split <;> rfl

@[simp] theorem noteWrite_pc (l : List Host.Cell) (s : State) : (noteWrite l s).pc = s.pc := by
  unfold noteWrite; dsimp only; split <;> rfl

@[simp] theorem noteWrite_f (l : List Host.Cell) (s : State) : (noteWrite l s).f = s.f := by
  unfold noteWrite; dsimp only; split <;> rfl

@[simp] theorem noteWrite_frm (l : List Host.Cell) (s : State) : (noteWrite l s).frm = s.frm := by
  unfold noteWrite; dsimp only; split <;> rfl

@[simp] theorem noteWrite_fflags (l : List Host.Cell) (s : State) : (noteWrite l s).fflags = s.fflags := by
  unfold noteWrite; dsimp only; split <;> rfl

@[simp] theorem noteWrite_cycle (l : List Host.Cell) (s : State) : (noteWrite l s).cycle = s.cycle := by
  unfold noteWrite; dsimp only; split <;> rfl

@[simp] theorem noteWrite_time (l : List Host.Cell) (s : State) : (noteWrite l s).time = s.time := by
  unfold noteWrite; dsimp only; split <;> rfl

@[simp] theorem noteWrite_instret (l : List Host.Cell) (s : State) : (noteWrite l s).instret = s.instret := by
  unfold noteWrite; dsimp only; split <;> rfl

@[simp] theorem noteWrite_hpm (l : List Host.Cell) (s : State) : (noteWrite l s).hpm = s.hpm := by
  unfold noteWrite; dsimp only; split <;> rfl

@[simp] theorem noteWrite_reservation (l : List Host.Cell) (s : State) : (noteWrite l s).reservation = s.reservation := by
  unfold noteWrite; dsimp only; split <;> rfl

@[simp] theorem noteWrite_watch (l : List Host.Cell) (s : State) : (noteWrite l s).watch = s.watch := by
  unfold noteWrite; dsimp only; split <;> rfl

@[simp] theorem noteWrite_mem (l : List Host.Cell) (s : State) : (noteWrite l s).mem = s.mem := by
  unfold noteWrite; dsimp only; split <;> rfl

@[simp] theorem noteWrite_stale (l : List Host.Cell) (s : State) : (noteWrite l s).stale = s.stale := by
  unfold noteWrite; dsimp only; split <;> rfl

@[simp] theorem noteWrite_trap (l : List Host.Cell) (s : State) : (noteWrite l s).trap = s.trap := by
  unfold noteWrite; dsimp only; split <;> rfl

@[simp] theorem noteWrite_draw (l : List Host.Cell) (s : State) : (noteWrite l s).draw = s.draw := by
  unfold noteWrite; dsimp only; split <;> rfl

/-! ### Bytes stored -/

@[simp] theorem storeBytes_cfg (l : List Host.Cell) (s : State) : (storeBytes l s).cfg = s.cfg := by
  induction l generalizing s with
  | nil => rfl
  | cons c l ih => rw [storeBytes, ih]; split <;> rfl

@[simp] theorem storeBytes_x (l : List Host.Cell) (s : State) : (storeBytes l s).x = s.x := by
  induction l generalizing s with
  | nil => rfl
  | cons c l ih => rw [storeBytes, ih]; split <;> rfl

@[simp] theorem storeBytes_pc (l : List Host.Cell) (s : State) : (storeBytes l s).pc = s.pc := by
  induction l generalizing s with
  | nil => rfl
  | cons c l ih => rw [storeBytes, ih]; split <;> rfl

@[simp] theorem storeBytes_f (l : List Host.Cell) (s : State) : (storeBytes l s).f = s.f := by
  induction l generalizing s with
  | nil => rfl
  | cons c l ih => rw [storeBytes, ih]; split <;> rfl

@[simp] theorem storeBytes_frm (l : List Host.Cell) (s : State) : (storeBytes l s).frm = s.frm := by
  induction l generalizing s with
  | nil => rfl
  | cons c l ih => rw [storeBytes, ih]; split <;> rfl

@[simp] theorem storeBytes_fflags (l : List Host.Cell) (s : State) : (storeBytes l s).fflags = s.fflags := by
  induction l generalizing s with
  | nil => rfl
  | cons c l ih => rw [storeBytes, ih]; split <;> rfl

@[simp] theorem storeBytes_cycle (l : List Host.Cell) (s : State) : (storeBytes l s).cycle = s.cycle := by
  induction l generalizing s with
  | nil => rfl
  | cons c l ih => rw [storeBytes, ih]; split <;> rfl

@[simp] theorem storeBytes_time (l : List Host.Cell) (s : State) : (storeBytes l s).time = s.time := by
  induction l generalizing s with
  | nil => rfl
  | cons c l ih => rw [storeBytes, ih]; split <;> rfl

@[simp] theorem storeBytes_instret (l : List Host.Cell) (s : State) : (storeBytes l s).instret = s.instret := by
  induction l generalizing s with
  | nil => rfl
  | cons c l ih => rw [storeBytes, ih]; split <;> rfl

@[simp] theorem storeBytes_hpm (l : List Host.Cell) (s : State) : (storeBytes l s).hpm = s.hpm := by
  induction l generalizing s with
  | nil => rfl
  | cons c l ih => rw [storeBytes, ih]; split <;> rfl

@[simp] theorem storeBytes_reservation (l : List Host.Cell) (s : State) : (storeBytes l s).reservation = s.reservation := by
  induction l generalizing s with
  | nil => rfl
  | cons c l ih => rw [storeBytes, ih]; split <;> rfl

@[simp] theorem storeBytes_watch (l : List Host.Cell) (s : State) : (storeBytes l s).watch = s.watch := by
  induction l generalizing s with
  | nil => rfl
  | cons c l ih => rw [storeBytes, ih]; split <;> rfl

@[simp] theorem storeBytes_trap (l : List Host.Cell) (s : State) : (storeBytes l s).trap = s.trap := by
  induction l generalizing s with
  | nil => rfl
  | cons c l ih => rw [storeBytes, ih]; split <;> rfl

@[simp] theorem storeBytes_io (l : List Host.Cell) (s : State) : (storeBytes l s).io = s.io := by
  induction l generalizing s with
  | nil => rfl
  | cons c l ih => rw [storeBytes, ih]; split <;> rfl

@[simp] theorem storeBytes_draw (l : List Host.Cell) (s : State) : (storeBytes l s).draw = s.draw := by
  induction l generalizing s with
  | nil => rfl
  | cons c l ih => rw [storeBytes, ih]; split <;> rfl

/-! ### One store -/

@[simp] theorem writeCells_cfg (l : List Host.Cell) (s : State) : (writeCells l s).cfg = s.cfg := by
  simp [writeCells]

@[simp] theorem writeCells_x (l : List Host.Cell) (s : State) : (writeCells l s).x = s.x := by
  simp [writeCells]

@[simp] theorem writeCells_pc (l : List Host.Cell) (s : State) : (writeCells l s).pc = s.pc := by
  simp [writeCells]

@[simp] theorem writeCells_f (l : List Host.Cell) (s : State) : (writeCells l s).f = s.f := by
  simp [writeCells]

@[simp] theorem writeCells_frm (l : List Host.Cell) (s : State) : (writeCells l s).frm = s.frm := by
  simp [writeCells]

@[simp] theorem writeCells_fflags (l : List Host.Cell) (s : State) : (writeCells l s).fflags = s.fflags := by
  simp [writeCells]

@[simp] theorem writeCells_cycle (l : List Host.Cell) (s : State) : (writeCells l s).cycle = s.cycle := by
  simp [writeCells]

@[simp] theorem writeCells_time (l : List Host.Cell) (s : State) : (writeCells l s).time = s.time := by
  simp [writeCells]

@[simp] theorem writeCells_instret (l : List Host.Cell) (s : State) : (writeCells l s).instret = s.instret := by
  simp [writeCells]

@[simp] theorem writeCells_hpm (l : List Host.Cell) (s : State) : (writeCells l s).hpm = s.hpm := by
  simp [writeCells]

@[simp] theorem writeCells_reservation (l : List Host.Cell) (s : State) : (writeCells l s).reservation = s.reservation := by
  simp [writeCells]

@[simp] theorem writeCells_watch (l : List Host.Cell) (s : State) : (writeCells l s).watch = s.watch := by
  simp [writeCells]

@[simp] theorem writeCells_trap (l : List Host.Cell) (s : State) : (writeCells l s).trap = s.trap := by
  simp [writeCells]

@[simp] theorem writeCells_draw (l : List Host.Cell) (s : State) : (writeCells l s).draw = s.draw := by
  simp [writeCells]

/-! ### `MemWrite` -/

@[simp] theorem memWrite_cfg (a : Word) (n v : Nat) (s : State) : (memWrite a n v s).cfg = s.cfg := by
  simp [memWrite]

@[simp] theorem memWrite_x (a : Word) (n v : Nat) (s : State) : (memWrite a n v s).x = s.x := by
  simp [memWrite]

@[simp] theorem memWrite_pc (a : Word) (n v : Nat) (s : State) : (memWrite a n v s).pc = s.pc := by
  simp [memWrite]

@[simp] theorem memWrite_f (a : Word) (n v : Nat) (s : State) : (memWrite a n v s).f = s.f := by
  simp [memWrite]

@[simp] theorem memWrite_frm (a : Word) (n v : Nat) (s : State) : (memWrite a n v s).frm = s.frm := by
  simp [memWrite]

@[simp] theorem memWrite_fflags (a : Word) (n v : Nat) (s : State) : (memWrite a n v s).fflags = s.fflags := by
  simp [memWrite]

@[simp] theorem memWrite_cycle (a : Word) (n v : Nat) (s : State) : (memWrite a n v s).cycle = s.cycle := by
  simp [memWrite]

@[simp] theorem memWrite_time (a : Word) (n v : Nat) (s : State) : (memWrite a n v s).time = s.time := by
  simp [memWrite]

@[simp] theorem memWrite_instret (a : Word) (n v : Nat) (s : State) : (memWrite a n v s).instret = s.instret := by
  simp [memWrite]

@[simp] theorem memWrite_hpm (a : Word) (n v : Nat) (s : State) : (memWrite a n v s).hpm = s.hpm := by
  simp [memWrite]

@[simp] theorem memWrite_reservation (a : Word) (n v : Nat) (s : State) : (memWrite a n v s).reservation = s.reservation := by
  simp [memWrite]

@[simp] theorem memWrite_watch (a : Word) (n v : Nat) (s : State) : (memWrite a n v s).watch = s.watch := by
  simp [memWrite]

@[simp] theorem memWrite_trap (a : Word) (n v : Nat) (s : State) : (memWrite a n v s).trap = s.trap := by
  simp [memWrite]

@[simp] theorem memWrite_draw (a : Word) (n v : Nat) (s : State) : (memWrite a n v s).draw = s.draw := by
  simp [memWrite]

/-! ### Writes of the environment -/

@[simp] theorem envWrite_cfg (k : Nat) (l : List Host.Cell) (s : State) : (envWrite k l s).cfg = s.cfg := by
  simp [envWrite]

@[simp] theorem envWrite_x (k : Nat) (l : List Host.Cell) (s : State) : (envWrite k l s).x = s.x := by
  simp [envWrite]

@[simp] theorem envWrite_pc (k : Nat) (l : List Host.Cell) (s : State) : (envWrite k l s).pc = s.pc := by
  simp [envWrite]

@[simp] theorem envWrite_f (k : Nat) (l : List Host.Cell) (s : State) : (envWrite k l s).f = s.f := by
  simp [envWrite]

@[simp] theorem envWrite_frm (k : Nat) (l : List Host.Cell) (s : State) : (envWrite k l s).frm = s.frm := by
  simp [envWrite]

@[simp] theorem envWrite_fflags (k : Nat) (l : List Host.Cell) (s : State) : (envWrite k l s).fflags = s.fflags := by
  simp [envWrite]

@[simp] theorem envWrite_cycle (k : Nat) (l : List Host.Cell) (s : State) : (envWrite k l s).cycle = s.cycle := by
  simp [envWrite]

@[simp] theorem envWrite_time (k : Nat) (l : List Host.Cell) (s : State) : (envWrite k l s).time = s.time := by
  simp [envWrite]

@[simp] theorem envWrite_instret (k : Nat) (l : List Host.Cell) (s : State) : (envWrite k l s).instret = s.instret := by
  simp [envWrite]

@[simp] theorem envWrite_hpm (k : Nat) (l : List Host.Cell) (s : State) : (envWrite k l s).hpm = s.hpm := by
  simp [envWrite]

@[simp] theorem envWrite_trap (k : Nat) (l : List Host.Cell) (s : State) : (envWrite k l s).trap = s.trap := by
  simp [envWrite]

@[simp] theorem envWrite_io (k : Nat) (l : List Host.Cell) (s : State) : (envWrite k l s).io = s.io := by
  simp [envWrite]

@[simp] theorem envWrite_draw (k : Nat) (l : List Host.Cell) (s : State) : (envWrite k l s).draw = s.draw := by
  simp [envWrite]

theorem envWrite_mem (k : Nat) (l : List Host.Cell) (s : State) : (envWrite k l s).mem = (storeBytes l s).mem := rfl

theorem envWrite_stale (k : Nat) (l : List Host.Cell) (s : State) :
    (envWrite k l s).stale = (storeBytes l s).stale := rfl

theorem envWrite_reservation (k : Nat) (l : List Host.Cell) (s : State) :
    (envWrite k l s).reservation = s.reservation.bind (reservationAfter s.draw k l) := rfl

/-! ### The turn of the environment agent -/

@[simp] theorem agentTurn_cfg (k : Nat) (s : State) : (agentTurn k s).cfg = s.cfg := by
  unfold agentTurn; split <;> simp

@[simp] theorem agentTurn_x (k : Nat) (s : State) : (agentTurn k s).x = s.x := by
  unfold agentTurn; split <;> simp

@[simp] theorem agentTurn_pc (k : Nat) (s : State) : (agentTurn k s).pc = s.pc := by
  unfold agentTurn; split <;> simp

@[simp] theorem agentTurn_f (k : Nat) (s : State) : (agentTurn k s).f = s.f := by
  unfold agentTurn; split <;> simp

@[simp] theorem agentTurn_frm (k : Nat) (s : State) : (agentTurn k s).frm = s.frm := by
  unfold agentTurn; split <;> simp

@[simp] theorem agentTurn_fflags (k : Nat) (s : State) : (agentTurn k s).fflags = s.fflags := by
  unfold agentTurn; split <;> simp

@[simp] theorem agentTurn_cycle (k : Nat) (s : State) : (agentTurn k s).cycle = s.cycle := by
  unfold agentTurn; split <;> simp

@[simp] theorem agentTurn_time (k : Nat) (s : State) : (agentTurn k s).time = s.time := by
  unfold agentTurn; split <;> simp

@[simp] theorem agentTurn_instret (k : Nat) (s : State) : (agentTurn k s).instret = s.instret := by
  unfold agentTurn; split <;> simp

@[simp] theorem agentTurn_hpm (k : Nat) (s : State) : (agentTurn k s).hpm = s.hpm := by
  unfold agentTurn; split <;> simp

@[simp] theorem agentTurn_trap (k : Nat) (s : State) : (agentTurn k s).trap = s.trap := by
  unfold agentTurn; split <;> simp

@[simp] theorem agentTurn_io (k : Nat) (s : State) : (agentTurn k s).io = s.io := by
  unfold agentTurn; split <;> simp

@[simp] theorem agentTurn_draw (k : Nat) (s : State) : (agentTurn k s).draw = s.draw := by
  unfold agentTurn; split <;> simp

/-! ### The turn before a memory operation -/

@[simp] theorem turnBefore_cfg (k : Nat) (s : State) : (turnBefore k s).cfg = s.cfg := by
  unfold turnBefore; split <;> simp

@[simp] theorem turnBefore_x (k : Nat) (s : State) : (turnBefore k s).x = s.x := by
  unfold turnBefore; split <;> simp

@[simp] theorem turnBefore_pc (k : Nat) (s : State) : (turnBefore k s).pc = s.pc := by
  unfold turnBefore; split <;> simp

@[simp] theorem turnBefore_f (k : Nat) (s : State) : (turnBefore k s).f = s.f := by
  unfold turnBefore; split <;> simp

@[simp] theorem turnBefore_frm (k : Nat) (s : State) : (turnBefore k s).frm = s.frm := by
  unfold turnBefore; split <;> simp

@[simp] theorem turnBefore_fflags (k : Nat) (s : State) : (turnBefore k s).fflags = s.fflags := by
  unfold turnBefore; split <;> simp

@[simp] theorem turnBefore_cycle (k : Nat) (s : State) : (turnBefore k s).cycle = s.cycle := by
  unfold turnBefore; split <;> simp

@[simp] theorem turnBefore_time (k : Nat) (s : State) : (turnBefore k s).time = s.time := by
  unfold turnBefore; split <;> simp

@[simp] theorem turnBefore_instret (k : Nat) (s : State) : (turnBefore k s).instret = s.instret := by
  unfold turnBefore; split <;> simp

@[simp] theorem turnBefore_hpm (k : Nat) (s : State) : (turnBefore k s).hpm = s.hpm := by
  unfold turnBefore; split <;> simp

@[simp] theorem turnBefore_trap (k : Nat) (s : State) : (turnBefore k s).trap = s.trap := by
  unfold turnBefore; split <;> simp

@[simp] theorem turnBefore_io (k : Nat) (s : State) : (turnBefore k s).io = s.io := by
  unfold turnBefore; split <;> simp

@[simp] theorem turnBefore_draw (k : Nat) (s : State) : (turnBefore k s).draw = s.draw := by
  unfold turnBefore; split <;> simp

/-! ### A read in parts -/

@[simp] theorem readParts_cfg (a : Word) (l : List (List Nat)) (k : Nat) (s : State) : ((readParts a l k s).2).cfg = s.cfg := by
  induction l generalizing k s with
  | nil => rfl
  | cons p l ih => simp [readParts, ih]

@[simp] theorem readParts_x (a : Word) (l : List (List Nat)) (k : Nat) (s : State) : ((readParts a l k s).2).x = s.x := by
  induction l generalizing k s with
  | nil => rfl
  | cons p l ih => simp [readParts, ih]

@[simp] theorem readParts_pc (a : Word) (l : List (List Nat)) (k : Nat) (s : State) : ((readParts a l k s).2).pc = s.pc := by
  induction l generalizing k s with
  | nil => rfl
  | cons p l ih => simp [readParts, ih]

@[simp] theorem readParts_f (a : Word) (l : List (List Nat)) (k : Nat) (s : State) : ((readParts a l k s).2).f = s.f := by
  induction l generalizing k s with
  | nil => rfl
  | cons p l ih => simp [readParts, ih]

@[simp] theorem readParts_frm (a : Word) (l : List (List Nat)) (k : Nat) (s : State) : ((readParts a l k s).2).frm = s.frm := by
  induction l generalizing k s with
  | nil => rfl
  | cons p l ih => simp [readParts, ih]

@[simp] theorem readParts_fflags (a : Word) (l : List (List Nat)) (k : Nat) (s : State) : ((readParts a l k s).2).fflags = s.fflags := by
  induction l generalizing k s with
  | nil => rfl
  | cons p l ih => simp [readParts, ih]

@[simp] theorem readParts_cycle (a : Word) (l : List (List Nat)) (k : Nat) (s : State) : ((readParts a l k s).2).cycle = s.cycle := by
  induction l generalizing k s with
  | nil => rfl
  | cons p l ih => simp [readParts, ih]

@[simp] theorem readParts_time (a : Word) (l : List (List Nat)) (k : Nat) (s : State) : ((readParts a l k s).2).time = s.time := by
  induction l generalizing k s with
  | nil => rfl
  | cons p l ih => simp [readParts, ih]

@[simp] theorem readParts_instret (a : Word) (l : List (List Nat)) (k : Nat) (s : State) : ((readParts a l k s).2).instret = s.instret := by
  induction l generalizing k s with
  | nil => rfl
  | cons p l ih => simp [readParts, ih]

@[simp] theorem readParts_hpm (a : Word) (l : List (List Nat)) (k : Nat) (s : State) : ((readParts a l k s).2).hpm = s.hpm := by
  induction l generalizing k s with
  | nil => rfl
  | cons p l ih => simp [readParts, ih]

@[simp] theorem readParts_trap (a : Word) (l : List (List Nat)) (k : Nat) (s : State) : ((readParts a l k s).2).trap = s.trap := by
  induction l generalizing k s with
  | nil => rfl
  | cons p l ih => simp [readParts, ih]

@[simp] theorem readParts_draw (a : Word) (l : List (List Nat)) (k : Nat) (s : State) : ((readParts a l k s).2).draw = s.draw := by
  induction l generalizing k s with
  | nil => rfl
  | cons p l ih => simp [readParts, ih]

/-! ### A store in parts -/

@[simp] theorem writeParts_cfg (c : List Host.Cell) (l : List (List Nat)) (k : Nat) (s : State) : (writeParts c l k s).cfg = s.cfg := by
  induction l generalizing k s with
  | nil => rfl
  | cons p l ih => simp [writeParts, ih]

@[simp] theorem writeParts_x (c : List Host.Cell) (l : List (List Nat)) (k : Nat) (s : State) : (writeParts c l k s).x = s.x := by
  induction l generalizing k s with
  | nil => rfl
  | cons p l ih => simp [writeParts, ih]

@[simp] theorem writeParts_pc (c : List Host.Cell) (l : List (List Nat)) (k : Nat) (s : State) : (writeParts c l k s).pc = s.pc := by
  induction l generalizing k s with
  | nil => rfl
  | cons p l ih => simp [writeParts, ih]

@[simp] theorem writeParts_f (c : List Host.Cell) (l : List (List Nat)) (k : Nat) (s : State) : (writeParts c l k s).f = s.f := by
  induction l generalizing k s with
  | nil => rfl
  | cons p l ih => simp [writeParts, ih]

@[simp] theorem writeParts_frm (c : List Host.Cell) (l : List (List Nat)) (k : Nat) (s : State) : (writeParts c l k s).frm = s.frm := by
  induction l generalizing k s with
  | nil => rfl
  | cons p l ih => simp [writeParts, ih]

@[simp] theorem writeParts_fflags (c : List Host.Cell) (l : List (List Nat)) (k : Nat) (s : State) : (writeParts c l k s).fflags = s.fflags := by
  induction l generalizing k s with
  | nil => rfl
  | cons p l ih => simp [writeParts, ih]

@[simp] theorem writeParts_cycle (c : List Host.Cell) (l : List (List Nat)) (k : Nat) (s : State) : (writeParts c l k s).cycle = s.cycle := by
  induction l generalizing k s with
  | nil => rfl
  | cons p l ih => simp [writeParts, ih]

@[simp] theorem writeParts_time (c : List Host.Cell) (l : List (List Nat)) (k : Nat) (s : State) : (writeParts c l k s).time = s.time := by
  induction l generalizing k s with
  | nil => rfl
  | cons p l ih => simp [writeParts, ih]

@[simp] theorem writeParts_instret (c : List Host.Cell) (l : List (List Nat)) (k : Nat) (s : State) : (writeParts c l k s).instret = s.instret := by
  induction l generalizing k s with
  | nil => rfl
  | cons p l ih => simp [writeParts, ih]

@[simp] theorem writeParts_hpm (c : List Host.Cell) (l : List (List Nat)) (k : Nat) (s : State) : (writeParts c l k s).hpm = s.hpm := by
  induction l generalizing k s with
  | nil => rfl
  | cons p l ih => simp [writeParts, ih]

@[simp] theorem writeParts_trap (c : List Host.Cell) (l : List (List Nat)) (k : Nat) (s : State) : (writeParts c l k s).trap = s.trap := by
  induction l generalizing k s with
  | nil => rfl
  | cons p l ih => simp [writeParts, ih]

@[simp] theorem writeParts_draw (c : List Host.Cell) (l : List (List Nat)) (k : Nat) (s : State) : (writeParts c l k s).draw = s.draw := by
  induction l generalizing k s with
  | nil => rfl
  | cons p l ih => simp [writeParts, ih]

/-! ### A read -/

@[simp] theorem readAccess_cfg (a : Word) (n : Nat) (s : State) : ((readAccess a n s).2).cfg = s.cfg := by
  unfold readAccess; split <;> simp

@[simp] theorem readAccess_x (a : Word) (n : Nat) (s : State) : ((readAccess a n s).2).x = s.x := by
  unfold readAccess; split <;> simp

@[simp] theorem readAccess_pc (a : Word) (n : Nat) (s : State) : ((readAccess a n s).2).pc = s.pc := by
  unfold readAccess; split <;> simp

@[simp] theorem readAccess_f (a : Word) (n : Nat) (s : State) : ((readAccess a n s).2).f = s.f := by
  unfold readAccess; split <;> simp

@[simp] theorem readAccess_frm (a : Word) (n : Nat) (s : State) : ((readAccess a n s).2).frm = s.frm := by
  unfold readAccess; split <;> simp

@[simp] theorem readAccess_fflags (a : Word) (n : Nat) (s : State) : ((readAccess a n s).2).fflags = s.fflags := by
  unfold readAccess; split <;> simp

@[simp] theorem readAccess_cycle (a : Word) (n : Nat) (s : State) : ((readAccess a n s).2).cycle = s.cycle := by
  unfold readAccess; split <;> simp

@[simp] theorem readAccess_time (a : Word) (n : Nat) (s : State) : ((readAccess a n s).2).time = s.time := by
  unfold readAccess; split <;> simp

@[simp] theorem readAccess_instret (a : Word) (n : Nat) (s : State) : ((readAccess a n s).2).instret = s.instret := by
  unfold readAccess; split <;> simp

@[simp] theorem readAccess_hpm (a : Word) (n : Nat) (s : State) : ((readAccess a n s).2).hpm = s.hpm := by
  unfold readAccess; split <;> simp

@[simp] theorem readAccess_trap (a : Word) (n : Nat) (s : State) : ((readAccess a n s).2).trap = s.trap := by
  unfold readAccess; split <;> simp

@[simp] theorem readAccess_draw (a : Word) (n : Nat) (s : State) : ((readAccess a n s).2).draw = s.draw := by
  unfold readAccess; split <;> simp

/-! ### A store -/

@[simp] theorem writeAccess_cfg (k : Nat) (a : Word) (n v : Nat) (s : State) : (writeAccess k a n v s).cfg = s.cfg := by
  unfold writeAccess; split <;> simp

@[simp] theorem writeAccess_x (k : Nat) (a : Word) (n v : Nat) (s : State) : (writeAccess k a n v s).x = s.x := by
  unfold writeAccess; split <;> simp

@[simp] theorem writeAccess_pc (k : Nat) (a : Word) (n v : Nat) (s : State) : (writeAccess k a n v s).pc = s.pc := by
  unfold writeAccess; split <;> simp

@[simp] theorem writeAccess_f (k : Nat) (a : Word) (n v : Nat) (s : State) : (writeAccess k a n v s).f = s.f := by
  unfold writeAccess; split <;> simp

@[simp] theorem writeAccess_frm (k : Nat) (a : Word) (n v : Nat) (s : State) : (writeAccess k a n v s).frm = s.frm := by
  unfold writeAccess; split <;> simp

@[simp] theorem writeAccess_fflags (k : Nat) (a : Word) (n v : Nat) (s : State) : (writeAccess k a n v s).fflags = s.fflags := by
  unfold writeAccess; split <;> simp

@[simp] theorem writeAccess_cycle (k : Nat) (a : Word) (n v : Nat) (s : State) : (writeAccess k a n v s).cycle = s.cycle := by
  unfold writeAccess; split <;> simp

@[simp] theorem writeAccess_time (k : Nat) (a : Word) (n v : Nat) (s : State) : (writeAccess k a n v s).time = s.time := by
  unfold writeAccess; split <;> simp

@[simp] theorem writeAccess_instret (k : Nat) (a : Word) (n v : Nat) (s : State) : (writeAccess k a n v s).instret = s.instret := by
  unfold writeAccess; split <;> simp

@[simp] theorem writeAccess_hpm (k : Nat) (a : Word) (n v : Nat) (s : State) : (writeAccess k a n v s).hpm = s.hpm := by
  unfold writeAccess; split <;> simp

@[simp] theorem writeAccess_trap (k : Nat) (a : Word) (n v : Nat) (s : State) : (writeAccess k a n v s).trap = s.trap := by
  unfold writeAccess; split <;> simp

@[simp] theorem writeAccess_draw (k : Nat) (a : Word) (n v : Nat) (s : State) : (writeAccess k a n v s).draw = s.draw := by
  unfold writeAccess; split <;> simp

/-! ### The start of a step -/

@[simp] theorem tick_cfg (s : State) : (tick s).cfg = s.cfg := rfl

@[simp] theorem tick_x (s : State) : (tick s).x = s.x := rfl

@[simp] theorem tick_pc (s : State) : (tick s).pc = s.pc := rfl

@[simp] theorem tick_f (s : State) : (tick s).f = s.f := rfl

@[simp] theorem tick_frm (s : State) : (tick s).frm = s.frm := rfl

@[simp] theorem tick_fflags (s : State) : (tick s).fflags = s.fflags := rfl

@[simp] theorem tick_instret (s : State) : (tick s).instret = s.instret := rfl

@[simp] theorem tick_reservation (s : State) : (tick s).reservation = s.reservation := rfl

@[simp] theorem tick_watch (s : State) : (tick s).watch = s.watch := rfl

@[simp] theorem tick_mem (s : State) : (tick s).mem = s.mem := rfl

@[simp] theorem tick_stale (s : State) : (tick s).stale = s.stale := rfl

@[simp] theorem tick_trap (s : State) : (tick s).trap = s.trap := rfl

@[simp] theorem tick_io (s : State) : (tick s).io = s.io := rfl

@[simp] theorem tick_draw (s : State) : (tick s).draw = s.draw + 1 := rfl

/-! ### Bytes loaded from outside -/

@[simp] theorem loadBytes_cfg (l : List Host.Cell) (s : State) : (loadBytes l s).cfg = s.cfg := by
  induction l generalizing s with
  | nil => rfl
  | cons c l ih => rw [loadBytes, ih]

@[simp] theorem loadBytes_x (l : List Host.Cell) (s : State) : (loadBytes l s).x = s.x := by
  induction l generalizing s with
  | nil => rfl
  | cons c l ih => rw [loadBytes, ih]

@[simp] theorem loadBytes_pc (l : List Host.Cell) (s : State) : (loadBytes l s).pc = s.pc := by
  induction l generalizing s with
  | nil => rfl
  | cons c l ih => rw [loadBytes, ih]

@[simp] theorem loadBytes_f (l : List Host.Cell) (s : State) : (loadBytes l s).f = s.f := by
  induction l generalizing s with
  | nil => rfl
  | cons c l ih => rw [loadBytes, ih]

@[simp] theorem loadBytes_frm (l : List Host.Cell) (s : State) : (loadBytes l s).frm = s.frm := by
  induction l generalizing s with
  | nil => rfl
  | cons c l ih => rw [loadBytes, ih]

@[simp] theorem loadBytes_fflags (l : List Host.Cell) (s : State) : (loadBytes l s).fflags = s.fflags := by
  induction l generalizing s with
  | nil => rfl
  | cons c l ih => rw [loadBytes, ih]

@[simp] theorem loadBytes_cycle (l : List Host.Cell) (s : State) : (loadBytes l s).cycle = s.cycle := by
  induction l generalizing s with
  | nil => rfl
  | cons c l ih => rw [loadBytes, ih]

@[simp] theorem loadBytes_time (l : List Host.Cell) (s : State) : (loadBytes l s).time = s.time := by
  induction l generalizing s with
  | nil => rfl
  | cons c l ih => rw [loadBytes, ih]

@[simp] theorem loadBytes_instret (l : List Host.Cell) (s : State) : (loadBytes l s).instret = s.instret := by
  induction l generalizing s with
  | nil => rfl
  | cons c l ih => rw [loadBytes, ih]

@[simp] theorem loadBytes_hpm (l : List Host.Cell) (s : State) : (loadBytes l s).hpm = s.hpm := by
  induction l generalizing s with
  | nil => rfl
  | cons c l ih => rw [loadBytes, ih]

@[simp] theorem loadBytes_reservation (l : List Host.Cell) (s : State) : (loadBytes l s).reservation = s.reservation := by
  induction l generalizing s with
  | nil => rfl
  | cons c l ih => rw [loadBytes, ih]

@[simp] theorem loadBytes_watch (l : List Host.Cell) (s : State) : (loadBytes l s).watch = s.watch := by
  induction l generalizing s with
  | nil => rfl
  | cons c l ih => rw [loadBytes, ih]

@[simp] theorem loadBytes_trap (l : List Host.Cell) (s : State) : (loadBytes l s).trap = s.trap := by
  induction l generalizing s with
  | nil => rfl
  | cons c l ih => rw [loadBytes, ih]

@[simp] theorem loadBytes_io (l : List Host.Cell) (s : State) : (loadBytes l s).io = s.io := by
  induction l generalizing s with
  | nil => rfl
  | cons c l ih => rw [loadBytes, ih]

@[simp] theorem loadBytes_draw (l : List Host.Cell) (s : State) : (loadBytes l s).draw = s.draw := by
  induction l generalizing s with
  | nil => rfl
  | cons c l ih => rw [loadBytes, ih]

/-! ### An instruction placed -/

@[simp] theorem placeWord_cfg (w : InstrWord) (s : State) : (placeWord w s).cfg = s.cfg := by
  simp [placeWord]

@[simp] theorem placeWord_x (w : InstrWord) (s : State) : (placeWord w s).x = s.x := by
  simp [placeWord]

@[simp] theorem placeWord_pc (w : InstrWord) (s : State) : (placeWord w s).pc = s.pc := by
  simp [placeWord]

@[simp] theorem placeWord_f (w : InstrWord) (s : State) : (placeWord w s).f = s.f := by
  simp [placeWord]

@[simp] theorem placeWord_frm (w : InstrWord) (s : State) : (placeWord w s).frm = s.frm := by
  simp [placeWord]

@[simp] theorem placeWord_fflags (w : InstrWord) (s : State) : (placeWord w s).fflags = s.fflags := by
  simp [placeWord]

@[simp] theorem placeWord_cycle (w : InstrWord) (s : State) : (placeWord w s).cycle = s.cycle := by
  simp [placeWord]

@[simp] theorem placeWord_time (w : InstrWord) (s : State) : (placeWord w s).time = s.time := by
  simp [placeWord]

@[simp] theorem placeWord_instret (w : InstrWord) (s : State) : (placeWord w s).instret = s.instret := by
  simp [placeWord]

@[simp] theorem placeWord_hpm (w : InstrWord) (s : State) : (placeWord w s).hpm = s.hpm := by
  simp [placeWord]

@[simp] theorem placeWord_reservation (w : InstrWord) (s : State) : (placeWord w s).reservation = s.reservation := by
  simp [placeWord]

@[simp] theorem placeWord_watch (w : InstrWord) (s : State) : (placeWord w s).watch = s.watch := by
  simp [placeWord]

@[simp] theorem placeWord_io (w : InstrWord) (s : State) : (placeWord w s).io = s.io := by
  simp [placeWord]

@[simp] theorem placeWord_draw (w : InstrWord) (s : State) : (placeWord w s).draw = s.draw := by
  simp [placeWord]

@[simp] theorem placeWord_trap (w : InstrWord) (s : State) : (placeWord w s).trap = none := by
  simp [placeWord]

/-! ### The start of a step with the agent's turn -/

@[simp] theorem startStep_cfg (s : State) : (startStep s).cfg = s.cfg := by
  simp [startStep]

@[simp] theorem startStep_x (s : State) : (startStep s).x = s.x := by
  simp [startStep]

@[simp] theorem startStep_pc (s : State) : (startStep s).pc = s.pc := by
  simp [startStep]

@[simp] theorem startStep_f (s : State) : (startStep s).f = s.f := by
  simp [startStep]

@[simp] theorem startStep_frm (s : State) : (startStep s).frm = s.frm := by
  simp [startStep]

@[simp] theorem startStep_fflags (s : State) : (startStep s).fflags = s.fflags := by
  simp [startStep]

@[simp] theorem startStep_instret (s : State) : (startStep s).instret = s.instret := by
  simp [startStep]

@[simp] theorem startStep_trap (s : State) : (startStep s).trap = s.trap := by
  simp [startStep]

@[simp] theorem startStep_io (s : State) : (startStep s).io = s.io := by
  simp [startStep]

@[simp] theorem startStep_draw (s : State) : (startStep s).draw = s.draw + 1 := by simp [startStep]

/-! ### An instruction noted for a constrained loop -/

@[simp] theorem observe_cfg (i : Instr) (s : State) : (observe i s).cfg = s.cfg := by
  unfold observe; dsimp only; split <;> rfl

@[simp] theorem observe_x (i : Instr) (s : State) : (observe i s).x = s.x := by
  unfold observe; dsimp only; split <;> rfl

@[simp] theorem observe_pc (i : Instr) (s : State) : (observe i s).pc = s.pc := by
  unfold observe; dsimp only; split <;> rfl

@[simp] theorem observe_f (i : Instr) (s : State) : (observe i s).f = s.f := by
  unfold observe; dsimp only; split <;> rfl

@[simp] theorem observe_frm (i : Instr) (s : State) : (observe i s).frm = s.frm := by
  unfold observe; dsimp only; split <;> rfl

@[simp] theorem observe_fflags (i : Instr) (s : State) : (observe i s).fflags = s.fflags := by
  unfold observe; dsimp only; split <;> rfl

@[simp] theorem observe_cycle (i : Instr) (s : State) : (observe i s).cycle = s.cycle := by
  unfold observe; dsimp only; split <;> rfl

@[simp] theorem observe_time (i : Instr) (s : State) : (observe i s).time = s.time := by
  unfold observe; dsimp only; split <;> rfl

@[simp] theorem observe_instret (i : Instr) (s : State) : (observe i s).instret = s.instret := by
  unfold observe; dsimp only; split <;> rfl

@[simp] theorem observe_hpm (i : Instr) (s : State) : (observe i s).hpm = s.hpm := by
  unfold observe; dsimp only; split <;> rfl

@[simp] theorem observe_reservation (i : Instr) (s : State) : (observe i s).reservation = s.reservation := by
  unfold observe; dsimp only; split <;> rfl

@[simp] theorem observe_mem (i : Instr) (s : State) : (observe i s).mem = s.mem := by
  unfold observe; dsimp only; split <;> rfl

@[simp] theorem observe_stale (i : Instr) (s : State) : (observe i s).stale = s.stale := by
  unfold observe; dsimp only; split <;> rfl

@[simp] theorem observe_trap (i : Instr) (s : State) : (observe i s).trap = s.trap := by
  unfold observe; dsimp only; split <;> rfl

@[simp] theorem observe_io (i : Instr) (s : State) : (observe i s).io = s.io := by
  unfold observe; dsimp only; split <;> rfl

@[simp] theorem observe_draw (i : Instr) (s : State) : (observe i s).draw = s.draw := by
  unfold observe; dsimp only; split <;> rfl

end Sys2Proof.Machine
end

