-- ==== Sys2Proof/Laws/Registers.lean ====
section
/-! SUPPORT. Reading registers after writing them: integer registers, `f` registers, boxing, and the
floating-point operands of either kind. -/

namespace Sys2Proof.Machine

/-! ### XLEN-bit values -/

@[simp] theorem truncX_truncX (c : Xlen) (v : Word) : truncX c (truncX c v) = truncX c v := by
  cases c
  · simp only [truncX]
    apply BitVec.eq_of_toNat_eq
    simp only [BitVec.toNat_setWidth]
    omega
  · rfl

@[simp] theorem truncX_zero (c : Xlen) : truncX c 0#64 = 0#64 := by cases c <;> rfl

theorem truncX_toNat (c : Xlen) (v : Word) : (truncX c v).toNat = v.toNat % 2 ^ c.bits := by
  cases c
  · simp only [truncX, Xlen.bits, BitVec.toNat_setWidth]
    omega
  · simp only [truncX, Xlen.bits]
    exact (Nat.mod_eq_of_lt v.isLt).symm

theorem truncX_lt (c : Xlen) (v : Word) : (truncX c v).toNat < 2 ^ c.bits := by
  rw [truncX_toNat]; exact Nat.mod_lt _ (Nat.two_pow_pos _)

theorem truncX_of_lt (c : Xlen) (v : Word) (h : v.toNat < 2 ^ c.bits) : truncX c v = v := by
  apply BitVec.eq_of_toNat_eq; rw [truncX_toNat]; exact Nat.mod_eq_of_lt h

@[simp] theorem truncX_curPc (s : State) : truncX s.cfg.xlen (curPc s) = curPc s := by simp [curPc]

theorem sextX_trunc (c : Xlen) {n : Nat} (v : BitVec n) : truncX c (sextX c v) = sextX c v := by simp [sextX]

/-! ### Integer registers -/

@[simp] theorem readX_zero (s : State) : readX 0 s = 0 := by simp [readX]

@[simp] theorem truncX_readX (r : RegNum) (s : State) : truncX s.cfg.xlen (readX r s) = readX r s := by
  unfold readX; split <;> simp

/-- A register reads the same in states with the same registers and configuration. -/
theorem readX_congr (r : RegNum) {s t : State} (hx : t.x = s.x) (hc : t.cfg = s.cfg) : readX r t = readX r s := by
  simp only [readX, hx, hc]

theorem readX_writeX_same (r : RegNum) (v : Word) (s : State) :
    readX r (writeX r v s) = writtenX s.cfg.xlen r v := by
  by_cases h : r = 0
  · rw [readX, writtenX, if_pos h, if_pos h]
  · rw [readX, writtenX, if_neg h, if_neg h, writeX, if_neg h]
    simp only [Vector.getElem_set_self]
    exact truncX_truncX _ _

theorem readX_writeX_ne {r q : RegNum} (h : q ≠ r) (v : Word) (s : State) :
    readX q (writeX r v s) = readX q s := by
  have hn : r.toNat ≠ q.toNat := fun e => h (BitVec.eq_of_toNat_eq e.symm)
  by_cases hr : r = 0
  · rw [writeX, if_pos hr]
  · rw [writeX, if_neg hr]
    by_cases hq : q = 0
    · rw [readX, readX, if_pos hq, if_pos hq]
    · rw [readX, readX, if_neg hq, if_neg hq]
      simp only [Vector.getElem_set_ne _ _ hn]

@[simp] theorem writeX_zero (v : Word) (s : State) : writeX 0 v s = s := by simp [writeX]

theorem keptXBut_writeX (r : RegNum) (v : Word) (s : State) : KeptXBut r s (writeX r v s) :=
  fun _ h => readX_writeX_ne h v s

/-! ### Floating-point registers -/

theorem flen_le (c : Cfg) : flen c ≤ 128 := by unfold flen; split <;> (try split) <;> omega

theorem readF_congr (r : RegNum) {s t : State} (hf : t.f = s.f) (hc : t.cfg = s.cfg) : readF r t = readF r s := by
  unfold readF; rw [hc]; simp only [hf]

theorem truncF_truncF (l : Nat) (v : FWord) :
    (((v.setWidth l).setWidth 128).setWidth l).setWidth 128 = (v.setWidth l).setWidth 128 := by
  apply BitVec.eq_of_toNat_eq
  simp only [BitVec.toNat_setWidth]
  by_cases h : l ≤ 128
  · have h1 : v.toNat % 2 ^ l < 2 ^ 128 :=
      lt_of_lt_of_le (Nat.mod_lt _ (Nat.two_pow_pos _)) (Nat.pow_le_pow_right (by omega) h)
    rw [Nat.mod_eq_of_lt h1, Nat.mod_mod, Nat.mod_eq_of_lt h1]
  · have h1 : v.toNat < 2 ^ l := lt_of_lt_of_le v.isLt (Nat.pow_le_pow_right (by omega) (by omega))
    rw [Nat.mod_eq_of_lt h1, Nat.mod_eq_of_lt v.isLt, Nat.mod_eq_of_lt h1, Nat.mod_eq_of_lt v.isLt]

theorem readF_writeF_same (r : RegNum) (v : FWord) (s : State) :
    readF r (writeF r v s) = (v.setWidth (flen s.cfg)).setWidth 128 := by
  unfold readF writeF
  simp only [Vector.getElem_set_self]
  exact truncF_truncF _ _

theorem readF_writeF_ne {r q : RegNum} (h : q ≠ r) (v : FWord) (s : State) :
    readF q (writeF r v s) = readF q s := by
  have hn : r.toNat ≠ q.toNat := fun e => h (BitVec.eq_of_toNat_eq e.symm)
  unfold readF writeF
  simp [Vector.getElem_set_ne, hn]

/-- The width of `box`'s result: a boxed value of a format that fits loses nothing in the register. -/
theorem box_fits (l : Nat) (t : Fmt) (v : FpBits t) (h : t.width ≤ l) (h' : l ≤ 128) :
    ((box l t v).setWidth l).setWidth 128 = box l t v := by
  apply BitVec.eq_of_toNat_eq
  have hw : l - t.width + t.width = l := by omega
  have hlt : (BitVec.allOnes (l - t.width) ++ v).toNat < 2 ^ l := by
    have h1 := (BitVec.allOnes (l - t.width) ++ v).isLt
    have h2 : 2 ^ (l - t.width + t.width) = 2 ^ l := by rw [hw]
    exact h2 ▸ h1
  have h128 : (2 : Nat) ^ l ≤ 2 ^ 128 := Nat.pow_le_pow_right (by omega) h'
  simp only [box, BitVec.toNat_setWidth]
  rw [Nat.mod_eq_of_lt (lt_of_lt_of_le hlt h128), Nat.mod_eq_of_lt hlt,
    Nat.mod_eq_of_lt (lt_of_lt_of_le hlt h128)]

theorem readF_writeFBoxed_same (t : Fmt) (r : RegNum) (v : FpBits t) (s : State) (h : t.width ≤ flen s.cfg) :
    readF r (writeFBoxed t r v s) = box (flen s.cfg) t v := by
  rw [writeFBoxed, readF_writeF_same, box_fits _ _ _ h (flen_le _)]

theorem readF_writeFBoxed_ne {r q : RegNum} (t : Fmt) (h : q ≠ r) (v : FpBits t) (s : State) :
    readF q (writeFBoxed t r v s) = readF q s := by
  rw [writeFBoxed, readF_writeF_ne h]

/-! ### Floating-point results -/

/-- What a floating-point result does to the registers, whichever they are. -/
theorem fpWritten_writeFp (fmt : Fmt) (rd : RegNum) (v : FpBits fmt) (s : State)
    (h : fpHolds s.cfg fmt rd = true) : FpWritten fmt rd v s (writeFp fmt rd v s) := by
  unfold FpWritten fpHolds at *
  by_cases hz : s.cfg.ext.zfinx
  · simp only [hz, if_true] at h ⊢
    unfold writeFp
    simp only [hz, if_true]
    by_cases hp : usesPair s.cfg fmt
    · simp only [hp, Bool.true_and, if_true, Bool.not_eq_true'] at h ⊢
      by_cases hr : rd = 0
      · subst hr
        simp only [if_true]
        refine ⟨fun _ => rfl, ?_⟩
        simp [KeptX]
      · simp only [hr, if_false]
        have hne : rd + 1 ≠ rd := by
          intro e; have := congrArg BitVec.toNat e; simp [BitVec.toNat_add] at this; omega
        have hne0 : rd + 1 ≠ 0 := by
          intro e
          have h2 := congrArg BitVec.toNat e
          simp [BitVec.toNat_add] at h2
          rw [BitVec.getLsbD] at h
          have : rd.toNat % 2 = 0 := by
            have := Nat.testBit_zero (rd.toNat)
            rw [h] at this
            simpa using this.symm
          have := rd.isLt
          omega
        have hx : s.cfg.xlen = .rv32 := by
          unfold usesPair at hp
          cases hc : s.cfg.xlen with
          | rv32 => rfl
          | rv64 => rw [hc] at hp; cases fmt <;> simp at hp
        refine ⟨fun r => readF_congr r (by simp) (by simp), fun r h1 h2 => ?_, ?_, ?_⟩
        · rw [readX_writeX_ne h2, readX_writeX_ne h1]
        · rw [readX_writeX_ne hne.symm, readX_writeX_same, writtenX, if_neg hr, hx]
          apply BitVec.eq_of_toNat_eq
          simp only [truncX, BitVec.toNat_setWidth]
          have := (v.extractLsb' 0 32).isLt
          omega
        · rw [readX_writeX_same, writtenX, if_neg hne0, writeX_cfg, hx]
          apply BitVec.eq_of_toNat_eq
          simp only [truncX, BitVec.toNat_setWidth]
          have := (v.extractLsb' 32 32).isLt
          omega
    · have hpf : usesPair s.cfg fmt = false := by simpa using hp
      simp only [hpf, if_false, Bool.false_eq_true]
      refine ⟨fun r => readF_congr r (by simp) (by simp), keptXBut_writeX _ _ _, ?_⟩
      rw [readX_writeX_same]
      simp [writtenX, sextX]
  · have hzf : s.cfg.ext.zfinx = false := by simpa using hz
    simp only [hzf, if_false, Bool.false_eq_true, decide_eq_true_eq] at h ⊢
    unfold writeFp
    simp only [hzf, if_false, Bool.false_eq_true]
    exact ⟨fun r => readX_congr r (by simp) (by simp), fun r hr => readF_writeFBoxed_ne fmt hr v s,
      readF_writeFBoxed_same fmt rd v s h⟩

end Sys2Proof.Machine
end

