-- ==== Sys2Proof/Laws/Memory.lean ====
section
/-! SUPPORT. Memory: read after write, and that every memory operation keeps the canonical form and stays
inside the address space. -/

namespace Sys2Proof.Machine

/-! ### One byte -/

theorem Memory.get_insert_same (m : List Host.Cell) (k : Nat) (v : Byte) : Memory.get (Memory.insert m k v) k = v := by
  induction m with
  | nil => simp [Memory.insert, Memory.get]
  | cons c m ih =>
    obtain ⟨a, b⟩ := c
    unfold Memory.insert
    split
    · rename_i h; rw [Memory.get, if_neg (by omega), ih]
    · split <;> simp [Memory.get]

theorem Memory.get_insert_ne (m : List Host.Cell) {k a : Nat} (h : a ≠ k) (v : Byte) :
    Memory.get (Memory.insert m k v) a = Memory.get m a := by
  induction m with
  | nil => simp [Memory.insert, Memory.get, Ne.symm h]
  | cons c m ih =>
    obtain ⟨b, w⟩ := c
    unfold Memory.insert
    split
    · simp only [Memory.get, ih]
    · split
      · rename_i hb; subst hb; simp [Memory.get, Ne.symm h]
      · simp [Memory.get, Ne.symm h]

theorem Memory.get_filter_same (m : List Host.Cell) (k : Nat) :
    Memory.get (m.filter (fun c => c.1 != k)) k = Memory.unlisted := by
  induction m with
  | nil => rfl
  | cons c m ih =>
    by_cases h : c.1 = k
    · simpa [h] using ih
    · obtain ⟨a, b⟩ := c
      simp only at h
      simpa [h, Memory.get] using ih

theorem Memory.get_filter_ne (m : List Host.Cell) {k a : Nat} (h : a ≠ k) :
    Memory.get (m.filter (fun c => c.1 != k)) a = Memory.get m a := by
  induction m with
  | nil => rfl
  | cons c m ih =>
    obtain ⟨b, w⟩ := c
    by_cases hb : b = k
    · subst hb; simpa [Memory.get, Ne.symm h] using ih
    · by_cases hab : b = a
      · subst hab; simp [Memory.get, hb]
      · simpa [Memory.get, hb, hab] using ih

/-- A byte written reads back. -/
theorem Memory.get_set_same (m : List Host.Cell) (k : Nat) (v : Byte) : Memory.get (Memory.set m k v) k = v := by
  unfold Memory.set
  split
  · rename_i h; rw [Memory.get_filter_same, h]
  · exact Memory.get_insert_same m k v

/-- A write leaves every other byte alone. -/
theorem Memory.get_set_ne (m : List Host.Cell) {k a : Nat} (h : a ≠ k) (v : Byte) :
    Memory.get (Memory.set m k v) a = Memory.get m a := by
  unfold Memory.set
  split
  · exact Memory.get_filter_ne m h
  · exact Memory.get_insert_ne m h v

/-! ### The canonical form -/

theorem Memory.wfFrom_le {lo lo' : Nat} (h : lo' ≤ lo) (m : List Host.Cell) (hm : Memory.wfFrom lo m = true) :
    Memory.wfFrom lo' m = true := by
  cases m with
  | nil => rfl
  | cons c m =>
    obtain ⟨a, b⟩ := c
    simp only [Memory.wfFrom, Bool.and_eq_true, decide_eq_true_eq] at hm ⊢
    exact ⟨⟨by omega, hm.1.2⟩, hm.2⟩

theorem Memory.wfFrom_filter (lo : Nat) (m : List Host.Cell) (p : Host.Cell → Bool) (hm : Memory.wfFrom lo m = true) :
    Memory.wfFrom lo (m.filter p) = true := by
  induction m generalizing lo with
  | nil => rfl
  | cons c m ih =>
    obtain ⟨a, b⟩ := c
    simp only [Memory.wfFrom, Bool.and_eq_true, decide_eq_true_eq] at hm
    rw [List.filter_cons]
    split
    · simp only [Memory.wfFrom, Bool.and_eq_true, decide_eq_true_eq]
      exact ⟨hm.1, ih _ hm.2⟩
    · exact Memory.wfFrom_le (by omega) _ (ih _ hm.2)

theorem Memory.wfFrom_insert (lo : Nat) (m : List Host.Cell) (k : Nat) (v : Byte) (hk : lo ≤ k)
    (hv : v ≠ Memory.unlisted) (hm : Memory.wfFrom lo m = true) : Memory.wfFrom lo (Memory.insert m k v) = true := by
  induction m generalizing lo with
  | nil => simp [Memory.insert, Memory.wfFrom, hk, hv]
  | cons c m ih =>
    obtain ⟨a, b⟩ := c
    simp only [Memory.wfFrom, Bool.and_eq_true, decide_eq_true_eq] at hm
    unfold Memory.insert
    split
    · simp only [Memory.wfFrom, Bool.and_eq_true, decide_eq_true_eq]
      exact ⟨hm.1, ih _ (by omega) hm.2⟩
    · split
      · rename_i h; subst h
        simp only [Memory.wfFrom, Bool.and_eq_true, decide_eq_true_eq]
        exact ⟨⟨hk, by simpa using hv⟩, hm.2⟩
      · simp only [Memory.wfFrom, Bool.and_eq_true, decide_eq_true_eq]
        exact ⟨⟨hk, by simpa using hv⟩, ⟨by omega, hm.1.2⟩, hm.2⟩

/-- A write keeps the canonical form. -/
theorem Memory.wf_set (m : List Host.Cell) (k : Nat) (v : Byte) (hm : Memory.wf m = true) :
    Memory.wf (Memory.set m k v) = true := by
  unfold Memory.set
  split
  · exact Memory.wfFrom_filter 0 m _ hm
  · rename_i h; exact Memory.wfFrom_insert 0 m k v (Nat.zero_le _) h hm

theorem Memory.mem_insert {m : List Host.Cell} {k : Nat} {v : Byte} {c : Host.Cell} (h : c ∈ Memory.insert m k v) :
    c = (k, v) ∨ c ∈ m := by
  induction m with
  | nil => simpa [Memory.insert] using h
  | cons d m ih =>
    obtain ⟨a, b⟩ := d
    unfold Memory.insert at h
    split at h
    · rcases List.mem_cons.1 h with h | h
      · exact .inr (by simp [h])
      · rcases ih h with h | h
        · exact .inl h
        · exact .inr (by simp [h])
    · split at h
      · rcases List.mem_cons.1 h with h | h
        · exact .inl h
        · exact .inr (by simp [h])
      · rcases List.mem_cons.1 h with h | h
        · exact .inl h
        · exact .inr h

/-- What a write lists is the written byte or was listed. -/
theorem Memory.mem_set {m : List Host.Cell} {k : Nat} {v : Byte} {c : Host.Cell} (h : c ∈ Memory.set m k v) :
    c = (k, v) ∨ c ∈ m := by
  unfold Memory.set at h
  split at h
  · exact .inr (List.mem_of_mem_filter h)
  · exact Memory.mem_insert h

/-! ### Several bytes -/

theorem storeBytes_wf (l : List Host.Cell) (s : State) (h : Memory.wf s.mem = true) :
    Memory.wf (storeBytes l s).mem = true := by
  induction l generalizing s with
  | nil => exact h
  | cons c l ih =>
    rw [storeBytes]
    apply ih
    split
    · exact h
    · exact Memory.wf_set _ _ _ h

theorem storeBytes_inside (l : List Host.Cell) (s : State) (n : Nat) (hl : ∀ c ∈ l, c.1 < n)
    (h : ∀ c ∈ s.mem, c.1 < n) : ∀ c ∈ (storeBytes l s).mem, c.1 < n := by
  induction l generalizing s with
  | nil => exact h
  | cons c l ih =>
    rw [storeBytes]
    apply ih _ (fun d hd => hl d (List.mem_cons_of_mem _ hd))
    split
    · exact h
    · intro d hd
      rcases Memory.mem_set hd with hd | hd
      · rw [hd]; exact hl c List.mem_cons_self
      · exact h d hd

/-- Bytes not stored to read as before. -/
theorem storeBytes_get_other (l : List Host.Cell) (s : State) (a : Nat) (h : ∀ c ∈ l, c.1 ≠ a) :
    Memory.get (storeBytes l s).mem a = Memory.get s.mem a := by
  induction l generalizing s with
  | nil => rfl
  | cons c l ih =>
    rw [storeBytes, ih _ (fun d hd => h d (List.mem_cons_of_mem _ hd))]
    split
    · rfl
    · exact Memory.get_set_ne _ (Ne.symm (h c List.mem_cons_self)) _

theorem loadBytes_wf (l : List Host.Cell) (s : State) (h : Memory.wf s.mem = true) :
    Memory.wf (loadBytes l s).mem = true := by
  induction l generalizing s with
  | nil => exact h
  | cons c l ih => rw [loadBytes]; exact ih _ (Memory.wf_set _ _ _ h)

/-! ### Accesses -/

theorem writeCells_mem (l : List Host.Cell) (s : State) : (writeCells l s).mem = (storeBytes l s).mem := by
  simp [writeCells]

theorem memWrite_mem (a : Word) (n v : Nat) (s : State) :
    (memWrite a n v s).mem = (storeBytes (storeCells s.cfg a n v) s).mem := writeCells_mem _ s

/-- `MemWrite` keeps the canonical form. -/
theorem memWrite_wf (a : Word) (n v : Nat) (s : State) (h : Memory.wf s.mem = true) :
    Memory.wf (memWrite a n v s).mem = true := by rw [memWrite_mem]; exact storeBytes_wf _ _ h

/-- The environment's writes keep the canonical form. -/
theorem envWrite_wf (k : Nat) (l : List Host.Cell) (s : State) (h : Memory.wf s.mem = true) :
    Memory.wf (envWrite k l s).mem = true := storeBytes_wf l s h

theorem wrapCells_lt {c : Cfg} {l : List Host.Cell} {d : Host.Cell} (h : d ∈ wrapCells c l) :
    d.1 < 2 ^ c.xlen.bits := by
  obtain ⟨w, -, rfl⟩ := List.mem_map.1 h
  exact Nat.mod_lt _ (Nat.two_pow_pos _)

/-- A turn of the environment agent keeps the canonical form. -/
theorem agentTurn_wf (k : Nat) (s : State) (h : Memory.wf s.mem = true) : Memory.wf (agentTurn k s).mem = true := by
  unfold agentTurn
  split
  · exact envWrite_wf _ _ _ h
  · exact h

/-- A turn of the environment agent leaves memory inside the address space. -/
theorem agentTurn_inside (k : Nat) (s : State) (h : ∀ c ∈ s.mem, c.1 < 2 ^ s.cfg.xlen.bits) :
    ∀ c ∈ (agentTurn k s).mem, c.1 < 2 ^ s.cfg.xlen.bits := by
  unfold agentTurn
  split
  · exact storeBytes_inside _ _ _ (fun c hc => wrapCells_lt hc) h
  · exact h

/-- The start of a step keeps the canonical form. -/
theorem startStep_wf (s : State) (h : Memory.wf s.mem = true) : Memory.wf (startStep s).mem = true :=
  agentTurn_wf 0 (tick s) h

/-- The start of a step leaves memory inside the address space. -/
theorem startStep_inside (s : State) (h : ∀ c ∈ s.mem, c.1 < 2 ^ s.cfg.xlen.bits) :
    ∀ c ∈ (startStep s).mem, c.1 < 2 ^ s.cfg.xlen.bits := agentTurn_inside 0 (tick s) h

theorem turnBefore_wf (k : Nat) (s : State) (h : Memory.wf s.mem = true) : Memory.wf (turnBefore k s).mem = true := by
  unfold turnBefore
  split
  · exact h
  · exact agentTurn_wf k s h

theorem turnBefore_inside (k : Nat) (s : State) (h : ∀ c ∈ s.mem, c.1 < 2 ^ s.cfg.xlen.bits) :
    ∀ c ∈ (turnBefore k s).mem, c.1 < 2 ^ s.cfg.xlen.bits := by
  unfold turnBefore
  split
  · exact h
  · exact agentTurn_inside k s h

/-- A read, in one memory operation or in several, keeps the canonical form. -/
theorem readAccess_wf (a : Word) (n : Nat) (s : State) (h : Memory.wf s.mem = true) :
    Memory.wf (readAccess a n s).2.mem = true := by
  have hp : ∀ (l : List (List Nat)) (k : Nat) (s : State), Memory.wf s.mem = true →
      Memory.wf (readParts a l k s).2.mem = true := by
    intro l
    induction l with
    | nil => exact fun _ _ h => h
    | cons p l ih => exact fun k s h => ih _ _ (by simpa using turnBefore_wf k s h)
  unfold readAccess
  split
  · simpa using h
  · exact hp _ _ _ h

/-- A read leaves memory inside the address space. -/
theorem readAccess_inside (a : Word) (n : Nat) (s : State) (h : ∀ c ∈ s.mem, c.1 < 2 ^ s.cfg.xlen.bits) :
    ∀ c ∈ (readAccess a n s).2.mem, c.1 < 2 ^ s.cfg.xlen.bits := by
  have hp : ∀ (l : List (List Nat)) (k : Nat) (s : State), (∀ c ∈ s.mem, c.1 < 2 ^ s.cfg.xlen.bits) →
      ∀ c ∈ (readParts a l k s).2.mem, c.1 < 2 ^ s.cfg.xlen.bits := by
    intro l
    induction l with
    | nil => exact fun _ _ h => h
    | cons p l ih =>
      intro k s h
      have := ih (k + 1) (noteReads (p.map (byteAddr s.cfg a)) (turnBefore k s)) (by simpa using turnBefore_inside k s h)
      simpa [readParts] using this
  unfold readAccess
  split
  · simpa using h
  · exact hp _ _ _ h

/-- Placing an instruction keeps the canonical form. -/
theorem placeWord_wf (w : InstrWord) (s : State) (h : Memory.wf s.mem = true) :
    Memory.wf (placeWord w s).mem = true := loadBytes_wf _ _ h

theorem mem_storeCells {c : Cfg} {a : Word} {n v : Nat} {d : Host.Cell} (h : d ∈ storeCells c a n v) :
    d.1 ∈ byteAddrs c a n := (List.of_mem_zip h).1

theorem byteAddrs_lt {c : Cfg} {a : Word} {n b : Nat} (h : b ∈ byteAddrs c a n) : b < 2 ^ c.xlen.bits := by
  simp only [byteAddrs, List.mem_map] at h
  obtain ⟨i, -, rfl⟩ := h
  exact Nat.mod_lt _ (Nat.two_pow_pos _)

theorem mem_byteAddrs {c : Cfg} {a : Word} {n b : Nat} : b ∈ byteAddrs c a n ↔ ∃ k, k < n ∧ byteAddr c a k = b := by
  simp [byteAddrs, byteAddr]

@[simp] theorem isIo_congr {c d : Cfg} (h : c = d) (a : Nat) : isIo c a = isIo d a := by rw [h]

/-- A byte reads the same in states with the same memory, configuration and index of the free values. -/
theorem readByte_congr {s t : State} (hm : t.mem = s.mem) (hc : t.cfg = s.cfg) (hd : t.draw = s.draw) (a : Nat) :
    readByte t a = readByte s a := by simp only [readByte, hm, hc, hd]

theorem parts_cells {l : List Host.Cell} {p : List Nat} {d : Host.Cell} (h : d ∈ p.filterMap (fun k => l[k]?)) : d ∈ l := by
  obtain ⟨k, -, hk⟩ := List.mem_filterMap.1 h
  exact List.mem_of_getElem? hk

/-- A store, in one memory operation or in several, keeps the canonical form. -/
theorem writeAccess_wf (k : Nat) (a : Word) (n v : Nat) (s : State) (h : Memory.wf s.mem = true) :
    Memory.wf (writeAccess k a n v s).mem = true := by
  have hp : ∀ (c : List Host.Cell) (l : List (List Nat)) (k : Nat) (s : State), Memory.wf s.mem = true →
      Memory.wf (writeParts c l k s).mem = true := by
    intro c l
    induction l with
    | nil => exact fun _ _ h => h
    | cons p l ih =>
      exact fun k s h => ih _ _ (by rw [writeCells_mem]; exact storeBytes_wf _ _ (turnBefore_wf k s h))
  unfold writeAccess
  split
  · exact memWrite_wf a n v s h
  · exact hp _ _ _ _ h

/-- A store leaves memory inside the address space. -/
theorem writeAccess_inside (k : Nat) (a : Word) (n v : Nat) (s : State) (h : ∀ c ∈ s.mem, c.1 < 2 ^ s.cfg.xlen.bits) :
    ∀ c ∈ (writeAccess k a n v s).mem, c.1 < 2 ^ s.cfg.xlen.bits := by
  have hl : ∀ d ∈ storeCells s.cfg a n v, d.1 < 2 ^ s.cfg.xlen.bits := fun d hd => byteAddrs_lt (mem_storeCells hd)
  have hp : ∀ (cs : List Host.Cell) (l : List (List Nat)) (k : Nat) (s : State),
      (∀ d ∈ cs, d.1 < 2 ^ s.cfg.xlen.bits) → (∀ c ∈ s.mem, c.1 < 2 ^ s.cfg.xlen.bits) →
      ∀ d ∈ (writeParts cs l k s).mem, d.1 < 2 ^ s.cfg.xlen.bits := by
    intro cs l
    induction l with
    | nil => exact fun _ _ _ h => h
    | cons p l ih =>
      intro k s hc h
      have := ih (k + 1) (writeCells (p.filterMap (fun j => cs[j]?)) (turnBefore k s)) (by simpa using hc) (by
        rw [writeCells_mem]
        simpa using storeBytes_inside _ _ _ (fun d hd => hc d (parts_cells hd)) (turnBefore_inside k s h))
      simpa [writeParts] using this
  unfold writeAccess
  split
  · rw [memWrite_mem]
    exact storeBytes_inside _ _ _ hl h
  · exact hp _ _ _ _ hl h

/-- A byte outside the bytes written reads as before. -/
theorem readByte_memWrite_other (a : Word) (n v : Nat) (s : State) (b : Nat) (h : b ∉ byteAddrs s.cfg a n) :
    readByte (memWrite a n v s) b = readByte s b := by
  simp only [readByte, memWrite_cfg, memWrite_draw, memWrite_mem]
  rw [storeBytes_get_other]
  intro c hc e
  exact h (e ▸ mem_storeCells hc)

end Sys2Proof.Machine
end

