-- ==== Sys2Proof/Laws/Ops.lean ====
section
/-! SUPPORT. What each shared operation can do, said once: `_spec` for an operation that always answers a next
state, `_cases` for one that may trap or stop. Proofs about instructions cite these and unfold no operation. -/

namespace Sys2Proof.Machine

/-! ### Reflexive and composed frames -/

theorem KeptX.refl (s : State) : KeptX s s := fun _ => rfl
theorem KeptF.refl (s : State) : KeptF s s := fun _ => rfl
theorem KeptFcsr.refl (s : State) : KeptFcsr s s := ⟨rfl, rfl⟩
theorem KeptCounters.refl (s : State) : KeptCounters s s := ⟨rfl, rfl, rfl⟩
theorem KeptMemory.refl (s : State) : KeptMemory s s := ⟨fun _ => rfl, rfl, rfl⟩
theorem KeptControl.refl (s : State) : KeptControl s s := ⟨rfl, rfl, rfl⟩

theorem KeptX.of_eq {s t : State} (hx : t.x = s.x) (hc : t.cfg = s.cfg) : KeptX s t := fun r => readX_congr r hx hc
theorem KeptF.of_eq {s t : State} (hf : t.f = s.f) (hc : t.cfg = s.cfg) : KeptF s t := fun r => readF_congr r hf hc
theorem KeptMemory.of_eq {s t : State} (hm : t.mem = s.mem) (hs : t.stale = s.stale) (hi : t.io = s.io)
    (hc : t.cfg = s.cfg) (hd : t.draw = s.draw) : KeptMemory s t := ⟨fun a => readByte_congr hm hc hd a, hs, hi⟩

theorem KeptReservation.refl (s : State) : KeptReservation s s := ⟨rfl, rfl⟩

/-- The state a completed instruction leaves: the pc and `instret` of `retire`. -/
theorem retire_eq (len : Nat) (s : State) :
    retire len s = .next { s with
      pc := truncX s.cfg.xlen (curPc s + BitVec.ofNat 64 len)
      instret := s.instret + 1 } := rfl

theorem jumpTo_eq (t : Word) (s : State) : jumpTo t s = .next { s with pc := t, instret := s.instret + 1 } := rfl

/-- Taking an exception: a next state, the record, and nothing else (60_exceptions.md R945, R958). -/
theorem raise_eq (e : Exn) (info : Word) (s : State) : raise e info s = .next (trapped e info s) := rfl

/-- `retire`: the pc and `instret` move, nothing else does. -/
theorem retire_spec (len : Nat) (s : State) :
    ∃ t, retire len s = .next t ∧ Retired len s t ∧ KeptX s t ∧ KeptBeyondX s t :=
  ⟨_, retire_eq len s, ⟨rfl, rfl⟩, KeptX.of_eq rfl rfl,
    KeptF.of_eq rfl rfl, ⟨rfl, rfl⟩, ⟨rfl, rfl, rfl⟩, KeptMemory.of_eq rfl rfl rfl rfl rfl, ⟨rfl, rfl, rfl⟩, rfl, rfl⟩

/-- One integer register written, then `retire`. -/
theorem retire_writeX_spec (len : Nat) (rd : RegNum) (v : Word) (s : State) :
    ∃ t, retire len (writeX rd v s) = .next t ∧ Retired len s t ∧
      readX rd t = writtenX s.cfg.xlen rd v ∧ KeptXBut rd s t ∧ KeptBeyondX s t := by
  refine ⟨_, retire_eq len _, ⟨?_, ?_⟩, ?_, ?_, ?_⟩
  · simp [curPc]
  · simp
  · exact (readX_congr rd (s := writeX rd v s) rfl rfl).trans (readX_writeX_same rd v s)
  · intro r hr
    exact (readX_congr r (s := writeX rd v s) rfl rfl).trans (readX_writeX_ne hr v s)
  · exact ⟨KeptF.of_eq (by simp) (by simp), ⟨by simp, by simp⟩, ⟨by simp, by simp, by simp⟩,
      KeptMemory.of_eq (by simp) (by simp) (by simp) (by simp) (by simp), ⟨by simp, by simp, by simp⟩, by simp, by simp⟩

/-- One integer register written, then a jump. -/
theorem jumpTo_writeX_spec (target : Word) (rd : RegNum) (v : Word) (s : State) :
    ∃ t, jumpTo target (writeX rd v s) = .next t ∧ Jumped target s t ∧
      readX rd t = writtenX s.cfg.xlen rd v ∧ KeptXBut rd s t ∧ KeptBeyondX s t := by
  refine ⟨_, jumpTo_eq target _, ⟨?_, ?_⟩, ?_, ?_, ?_⟩
  · rfl
  · simp
  · exact (readX_congr rd (s := writeX rd v s) rfl rfl).trans (readX_writeX_same rd v s)
  · intro r hr
    exact (readX_congr r (s := writeX rd v s) rfl rfl).trans (readX_writeX_ne hr v s)
  · exact ⟨KeptF.of_eq (by simp) (by simp), ⟨by simp, by simp⟩, ⟨by simp, by simp, by simp⟩,
      KeptMemory.of_eq (by simp) (by simp) (by simp) (by simp) (by simp), ⟨by simp, by simp, by simp⟩, by simp, by simp⟩

/-! ### Integer shapes -/

theorem regReg_spec (len : Nat) (op : AluOp) (rd rs1 rs2 : RegNum) (s : State) :
    ∃ t, regReg len op rd rs1 rs2 s = .next t ∧ Retired len s t ∧
      readX rd t = writtenX s.cfg.xlen rd (aluAtXlen s.cfg.xlen op (readX rs1 s) (readX rs2 s)) ∧
      KeptXBut rd s t ∧ KeptBeyondX s t := retire_writeX_spec len rd _ s

theorem regImm_spec (len : Nat) (op : AluOp) (rd rs1 : RegNum) (imm : Word) (s : State) :
    ∃ t, regImm len op rd rs1 imm s = .next t ∧ Retired len s t ∧
      readX rd t = writtenX s.cfg.xlen rd (aluAtXlen s.cfg.xlen op (readX rs1 s) (truncX s.cfg.xlen imm)) ∧
      KeptXBut rd s t ∧ KeptBeyondX s t := retire_writeX_spec len rd _ s

theorem regRegW_spec (len : Nat) (op : AluOp) (rd rs1 rs2 : RegNum) (s : State) :
    ∃ t, regRegW len op rd rs1 rs2 s = .next t ∧ Retired len s t ∧
      readX rd t = writtenX s.cfg.xlen rd (aluW s.cfg.xlen op (readX rs1 s) (readX rs2 s)) ∧
      KeptXBut rd s t ∧ KeptBeyondX s t := retire_writeX_spec len rd _ s

theorem regImmW_spec (len : Nat) (op : AluOp) (rd rs1 : RegNum) (imm : Word) (s : State) :
    ∃ t, regImmW len op rd rs1 imm s = .next t ∧ Retired len s t ∧
      readX rd t = writtenX s.cfg.xlen rd (aluW s.cfg.xlen op (readX rs1 s) imm) ∧
      KeptXBut rd s t ∧ KeptBeyondX s t := retire_writeX_spec len rd _ s

theorem loadImm_spec (len : Nat) (rd : RegNum) (imm : Word) (s : State) :
    ∃ t, loadImm len rd imm s = .next t ∧ Retired len s t ∧ readX rd t = writtenX s.cfg.xlen rd imm ∧
      KeptXBut rd s t ∧ KeptBeyondX s t := retire_writeX_spec len rd _ s

theorem pcRelative_spec (len : Nat) (rd : RegNum) (imm : Word) (s : State) :
    ∃ t, pcRelative len rd imm s = .next t ∧ Retired len s t ∧
      readX rd t = writtenX s.cfg.xlen rd (curPc s + imm) ∧ KeptXBut rd s t ∧ KeptBeyondX s t :=
  retire_writeX_spec len rd _ s

theorem noEffect_spec (len : Nat) (s : State) :
    ∃ t, noEffect len s = .next t ∧ Retired len s t ∧ KeptX s t ∧ KeptBeyondX s t := retire_spec len s

/-- FENCE.I: nothing is stale, the rest is `retire`. -/
theorem fenceInstr_spec (s : State) :
    ∃ t, fenceInstr s = .next t ∧ Retired 4 s t ∧ t.stale = [] ∧ KeptX s t ∧ KeptF s t ∧ KeptFcsr s t ∧
      KeptCounters s t ∧ (∀ a, readByte t a = readByte s a) ∧ t.io = s.io ∧ KeptControl s t ∧
      KeptReservation s t :=
  ⟨_, rfl, ⟨rfl, rfl⟩, rfl, KeptX.of_eq rfl rfl, KeptF.of_eq rfl rfl, ⟨rfl, rfl⟩, ⟨rfl, rfl, rfl⟩,
    fun a => readByte_congr rfl rfl rfl a, rfl, ⟨rfl, rfl, rfl⟩, rfl, rfl⟩

/-! ### Control transfer -/

/-- A jump: a trap on a misaligned target, else the link and the jump. -/
theorem jumpAndLink_cases (len : Nat) (rd : RegNum) (target : Word) (s : State) :
    (targetMisaligned s.cfg target = true ∧
      jumpAndLink len rd target s = .next (trapped .instrAddrMisaligned target s)) ∨
    (targetMisaligned s.cfg target = false ∧ ∃ t, jumpAndLink len rd target s = .next t ∧ Jumped target s t ∧
      readX rd t = writtenX s.cfg.xlen rd (linkValue len s) ∧ KeptXBut rd s t ∧ KeptBeyondX s t) := by
  unfold jumpAndLink
  by_cases h : targetMisaligned s.cfg target = true
  · exact .inl ⟨h, by rw [if_pos h, raise_eq]⟩
  · refine .inr ⟨by simpa using h, ?_⟩
    rw [if_neg h]
    exact jumpTo_writeX_spec target rd _ s

/-- A branch: not taken, it retires; taken, it jumps or traps. -/
theorem branch_cases (len : Nat) (cmp : CmpOp) (rs1 rs2 : RegNum) (off : Word) (s : State) :
    (cmpAtXlen s.cfg.xlen cmp (readX rs1 s) (readX rs2 s) = false ∧ ∃ t, branch len cmp rs1 rs2 off s = .next t ∧
      Retired len s t ∧ KeptX s t ∧ KeptBeyondX s t) ∨
    (cmpAtXlen s.cfg.xlen cmp (readX rs1 s) (readX rs2 s) = true ∧
      targetMisaligned s.cfg (truncX s.cfg.xlen (curPc s + off)) = true ∧
      branch len cmp rs1 rs2 off s =
        .next (trapped .instrAddrMisaligned (truncX s.cfg.xlen (curPc s + off)) s)) ∨
    (cmpAtXlen s.cfg.xlen cmp (readX rs1 s) (readX rs2 s) = true ∧
      targetMisaligned s.cfg (truncX s.cfg.xlen (curPc s + off)) = false ∧
      ∃ t, branch len cmp rs1 rs2 off s = .next t ∧ Jumped (truncX s.cfg.xlen (curPc s + off)) s t ∧
        KeptX s t ∧ KeptBeyondX s t) := by
  unfold branch
  by_cases h : cmpAtXlen s.cfg.xlen cmp (readX rs1 s) (readX rs2 s) = true
  · rw [if_pos h]
    dsimp only
    by_cases h2 : targetMisaligned s.cfg (truncX s.cfg.xlen (curPc s + off)) = true
    · exact .inr (.inl ⟨h, h2, by rw [if_pos h2, raise_eq]⟩)
    · refine .inr (.inr ⟨h, by simpa using h2, ?_⟩)
      rw [if_neg h2]
      exact ⟨_, jumpTo_eq _ _, ⟨rfl, rfl⟩, KeptX.of_eq rfl rfl, KeptF.of_eq rfl rfl, ⟨rfl, rfl⟩, ⟨rfl, rfl, rfl⟩,
        KeptMemory.of_eq rfl rfl rfl rfl rfl, ⟨rfl, rfl, rfl⟩, rfl, rfl⟩
  · rw [if_neg h]
    exact .inl ⟨by simpa using h, retire_spec len s⟩

/-! ### Loads and stores -/

/-- An integer load: the exception its access raises, else the value, the read seen by devices, retirement. -/
theorem loadX_cases (len n : Nat) (e : LoadExt) (rd rs1 : RegNum) (off : Word) (s : State) :
    (∃ x, accessCheck s.cfg .load (effAddr rs1 off s) n = some x ∧
      loadX len n e rd rs1 off s = .next (trapped x (effAddr rs1 off s) s)) ∨
    (accessCheck s.cfg .load (effAddr rs1 off s) n = none ∧
      loadX len n e rd rs1 off s = retire len (writeX rd
        (extendLoad s.cfg.xlen e n (readAccess (effAddr rs1 off s) n s).1) (readAccess (effAddr rs1 off s) n s).2)) := by
  unfold loadX
  cases h : accessCheck s.cfg .load (effAddr rs1 off s) n with
  | none => exact .inr ⟨rfl, by simp [h]⟩
  | some x => exact .inl ⟨x, rfl, by simp [h, raise_eq]⟩

/-- An integer store: the exception its access raises, else the bytes, retirement. -/
theorem storeX_cases (len n : Nat) (rs2 rs1 : RegNum) (off : Word) (s : State) :
    (∃ x, accessCheck s.cfg .store (effAddr rs1 off s) n = some x ∧
      storeX len n rs2 rs1 off s = .next (trapped x (effAddr rs1 off s) s)) ∨
    (accessCheck s.cfg .store (effAddr rs1 off s) n = none ∧
      storeX len n rs2 rs1 off s = retire len (writeAccess 0 (effAddr rs1 off s) n (readX rs2 s).toNat s)) := by
  unfold storeX
  cases h : accessCheck s.cfg .store (effAddr rs1 off s) n with
  | none => exact .inr ⟨rfl, by simp [h]⟩
  | some x => exact .inl ⟨x, rfl, by simp [h, raise_eq]⟩

/-- A floating-point load. -/
theorem loadF_cases (len : Nat) (fmt : Fmt) (rd rs1 : RegNum) (off : Word) (s : State) :
    (∃ x, accessCheck s.cfg .load (effAddr rs1 off s) (fmt.width / 8) = some x ∧
      loadF len fmt rd rs1 off s = .next (trapped x (effAddr rs1 off s) s)) ∨
    (accessCheck s.cfg .load (effAddr rs1 off s) (fmt.width / 8) = none ∧
      loadF len fmt rd rs1 off s = retire len (writeFBoxed fmt rd
        (BitVec.ofNat _ (readAccess (effAddr rs1 off s) (fmt.width / 8) s).1)
        (readAccess (effAddr rs1 off s) (fmt.width / 8) s).2)) := by
  unfold loadF
  cases h : accessCheck s.cfg .load (effAddr rs1 off s) (fmt.width / 8) with
  | none => exact .inr ⟨rfl, by simp [h]⟩
  | some x => exact .inl ⟨x, rfl, by simp [h, raise_eq]⟩

/-- A floating-point store. -/
theorem storeF_cases (len : Nat) (fmt : Fmt) (rs2 rs1 : RegNum) (off : Word) (s : State) :
    (∃ x, accessCheck s.cfg .store (effAddr rs1 off s) (fmt.width / 8) = some x ∧
      storeF len fmt rs2 rs1 off s = .next (trapped x (effAddr rs1 off s) s)) ∨
    (accessCheck s.cfg .store (effAddr rs1 off s) (fmt.width / 8) = none ∧
      storeF len fmt rs2 rs1 off s =
        retire len (writeAccess 0 (effAddr rs1 off s) (fmt.width / 8) (readFRaw fmt rs2 s).toNat s)) := by
  unfold storeF
  cases h : accessCheck s.cfg .store (effAddr rs1 off s) (fmt.width / 8) with
  | none => exact .inr ⟨rfl, by simp [h]⟩
  | some x => exact .inl ⟨x, rfl, by simp [h, raise_eq]⟩

/-! ### Atomics -/

/-- LR. -/
theorem loadReserved_cases (n : Nat) (rd rs1 : RegNum) (s : State) :
    (∃ x, accessCheck s.cfg .lr (effAddr rs1 0 s) n = some x ∧
      loadReserved n rd rs1 s = .next (trapped x (effAddr rs1 0 s) s)) ∨
    (accessCheck s.cfg .lr (effAddr rs1 0 s) n = none ∧
      loadReserved n rd rs1 s = retire 4 { writeX rd
        (extendLoad s.cfg.xlen .signed n (memRead (effAddr rs1 0 s) n s)) (noteRead (effAddr rs1 0 s) n s) with
        reservation := some (reservationFor s.cfg (effAddr rs1 0 s) n) }) := by
  unfold loadReserved
  generalize effAddr rs1 0 s = a
  cases h : accessCheck s.cfg .lr a n with
  | none => exact .inr ⟨rfl, by simp [h]⟩
  | some x => exact .inl ⟨x, rfl, by simp [h, raise_eq]⟩

/-- SC: the exception, the store with 0, or the failure code; the reservation is gone unless it trapped. -/
theorem storeConditional_cases (n : Nat) (rd rs1 rs2 : RegNum) (s : State) :
    (∃ x, accessCheck s.cfg .sc (effAddr rs1 0 s) n = some x ∧
      storeConditional n rd rs1 rs2 s = .next (trapped x (effAddr rs1 0 s) s)) ∨
    (accessCheck s.cfg .sc (effAddr rs1 0 s) n = none ∧ scSuccess (effAddr rs1 0 s) n s = true ∧
      storeConditional n rd rs1 rs2 s = retire 4 { writeX rd 0
        (memWrite (effAddr rs1 0 s) n (readX rs2 s).toNat s) with reservation := none, watch := none }) ∨
    (accessCheck s.cfg .sc (effAddr rs1 0 s) n = none ∧ scSuccess (effAddr rs1 0 s) n s = false ∧
      storeConditional n rd rs1 rs2 s = retire 4 { writeX rd Config.scFailCode s with
        reservation := none, watch := watchAfterFailure (effAddr rs1 0 s) n s }) := by
  unfold storeConditional
  generalize effAddr rs1 0 s = a
  cases h : accessCheck s.cfg .sc a n with
  | some x => exact .inl ⟨x, rfl, by simp [h, raise_eq]⟩
  | none =>
    cases hs : scSuccess a n s with
    | true => exact .inr (.inl ⟨rfl, rfl, by simp [h, hs]⟩)
    | false => exact .inr (.inr ⟨rfl, rfl, by simp [h, hs]⟩)

/-- When an SC succeeds: under a reservation that has all its bytes, if the free value says so or the constrained
loop is owed it; never otherwise. -/
theorem scSuccess_eq_true {a : Word} {n : Nat} {s : State} :
    scSuccess a n s = true ↔ Reserved s a n ∧ (Config.scSucceeds s.draw = true ∨ scOwed a n s = true) := by
  unfold scSuccess Reserved reservationCovers
  cases h : s.reservation with
  | none => simp
  | some r =>
    simp only [Bool.and_eq_true, Bool.or_eq_true, List.all_eq_true, mem_byteAddrs, Option.some.injEq,
      exists_eq_left']
    refine and_congr_left fun _ => ⟨fun hb k hk => hb _ ⟨k, hk, rfl⟩, ?_⟩
    rintro hb b ⟨k, hk, rfl⟩
    exact hb k hk

/-- Whether a loop's instructions are placed as R467 asks. -/
theorem loopFits_eq_true {s : State} {w : LoopWatch} :
    loopFits s w = true ↔ ∃ first ∈ w.code, ∀ i ∈ w.code, i.1 ∈ placed s w.code 16 first.1 := by
  simp only [loopFits, List.any_eq_true, List.all_eq_true, List.contains_iff_mem]

/-- What a failed SC leaves of a constrained loop: one more failure, or nothing. -/
theorem watchAfterFailure_cases {a : Word} {n : Nat} {s : State} {w : LoopWatch}
    (h : watchAfterFailure a n s = some w) :
    ∃ v, s.watch = some v ∧ scConstrained a n s v = true ∧ v.failures ≤ Config.scPatience v.since ∧
      w = { v with retrying := true, failures := v.failures + 1 } := by
  unfold watchAfterFailure at h
  obtain ⟨v, hv, h⟩ := Option.bind_eq_some_iff.1 h
  split at h
  · rename_i hc
    simp only [Bool.and_eq_true, decide_eq_true_eq] at hc
    exact ⟨v, hv, hc.1, hc.2, by simpa using h.symm⟩
  · cases h

/-- AMO: the exception, or the value read in `rd` and the operator's result in memory. -/
theorem amo_cases (op : AmoOp) (n : Nat) (rd rs1 rs2 : RegNum) (s : State) :
    (∃ x, accessCheck s.cfg (.amo op) (effAddr rs1 0 s) n = some x ∧
      amo op n rd rs1 rs2 s = .next (trapped x (effAddr rs1 0 s) s)) ∨
    (accessCheck s.cfg (.amo op) (effAddr rs1 0 s) n = none ∧
      amo op n rd rs1 rs2 s = retire 4 (writeX rd
        (extendLoad s.cfg.xlen .signed n (readAccess (effAddr rs1 0 s) n s).1)
        (writeAccess n (effAddr rs1 0 s) n
          (amoApply op (BitVec.ofNat (8 * n) (readAccess (effAddr rs1 0 s) n s).1)
            ((readX rs2 s).setWidth (8 * n))).toNat
          (readAccess (effAddr rs1 0 s) n s).2))) := by
  unfold amo
  generalize effAddr rs1 0 s = a
  cases h : accessCheck s.cfg (.amo op) a n with
  | none => exact .inr ⟨rfl, by simp [h]⟩
  | some x => exact .inl ⟨x, rfl, by simp [h, raise_eq]⟩

/-! ### CSR and floating-point shapes -/

/-- An instruction that is illegal when executed traps with its bits. -/
theorem illegal_eq (bits : InstrWord) (s : State) :
    illegal bits s = .next (trapped .illegalInstruction (truncX s.cfg.xlen (bits.setWidth 64)) s) := rfl

/-- A CSR instruction: illegal, or the old value in `rd` and the update in the CSR. -/
theorem csrAccess_cases (csr : BitVec 12) (rd : RegNum) (update : Option (Word → Word)) (bits : InstrWord)
    (s : State) :
    ((csrAt csr = none ∨ ∃ r, csrAt csr = some r ∧ csrPermitted s.cfg r update.isSome = false) ∧
      csrAccess csr rd update bits s = illegal bits s) ∨
    (∃ r, csrAt csr = some r ∧ csrPermitted s.cfg r update.isSome = true ∧
      csrAccess csr rd update bits s = retire 4 (writeX rd (csrRead r s)
        (match update with
          | none => s
          | some u => csrWrite r (u (csrRead r s)) s))) := by
  unfold csrAccess
  cases h : csrAt csr with
  | none => exact .inl ⟨.inl rfl, rfl⟩
  | some r =>
    by_cases hp : csrPermitted s.cfg r update.isSome = true
    · refine .inr ⟨r, rfl, hp, ?_⟩
      exact if_pos hp
    · exact .inl ⟨.inr ⟨r, rfl, by simpa using hp⟩, by simp [hp]⟩

/-- An instruction with an `rm` field: illegal on a reserved effective mode, else its body in that mode. -/
theorem withRm_cases (rm : BitVec 3) (bits : InstrWord) (s : State) (body : Rm → Res) :
    (effectiveRm rm s.frm = none ∧ withRm rm bits s body = illegal bits s) ∨
    (∃ m, effectiveRm rm s.frm = some m ∧ withRm rm bits s body = body m) := by
  unfold withRm
  cases h : effectiveRm rm s.frm with
  | none => exact .inl ⟨rfl, rfl⟩
  | some m => exact .inr ⟨m, rfl, rfl⟩

theorem FpWritten.congr {fmt : Fmt} {rd : RegNum} {v : FpBits fmt} {s t t' : State} (hx : t'.x = t.x)
    (hf : t'.f = t.f) (hc : t'.cfg = t.cfg) (h : FpWritten fmt rd v s t) : FpWritten fmt rd v s t' := by
  have hX : ∀ q, readX q t' = readX q t := fun q => readX_congr q hx hc
  have hF : ∀ q, readF q t' = readF q t := fun q => readF_congr q hf hc
  simpa only [FpWritten, KeptF, KeptX, KeptXBut, hX, hF] using h

/-- A floating-point result delivered: the destination, the accrued flags, retirement. -/
theorem finishFp_spec (fmt : Fmt) (rd : RegNum) (r : FpRes fmt) (s : State) (h : fpHolds s.cfg fmt rd = true) :
    ∃ t, finishFp fmt rd r s = .next t ∧ Retired 4 s t ∧ FpWritten fmt rd r.1 s t ∧
      t.fflags = s.fflags ||| r.2 ∧ KeptBeyondFp s t := by
  refine ⟨_, retire_eq 4 _, ⟨?_, ?_⟩, ?_, ?_, ?_⟩
  · simp [curPc]
  · simp
  · exact FpWritten.congr (by simp) (by simp) (by simp) (fpWritten_writeFp fmt rd r.1 s h)
  · simp
  · exact ⟨by simp, ⟨by simp, by simp, by simp⟩,
      KeptMemory.of_eq (by simp) (by simp) (by simp) (by simp) (by simp), ⟨by simp, by simp, by simp⟩, by simp, by simp⟩

/-- An integer result with flags delivered. -/
theorem finishInt_spec (rd : RegNum) (v : Word) (fl : FpFlags) (s : State) :
    ∃ t, finishInt rd v fl s = .next t ∧ Retired 4 s t ∧ readX rd t = writtenX s.cfg.xlen rd v ∧ KeptXBut rd s t ∧
      KeptF s t ∧ t.fflags = s.fflags ||| fl ∧ KeptBeyondFp s t := by
  refine ⟨_, retire_eq 4 _, ⟨?_, ?_⟩, ?_, ?_, ?_, ?_, ?_⟩
  · simp [curPc]
  · simp
  · exact (readX_congr rd (s := writeX rd v s) rfl rfl).trans (readX_writeX_same rd v s)
  · intro r hr
    exact (readX_congr r (s := writeX rd v s) rfl rfl).trans (readX_writeX_ne hr v s)
  · exact KeptF.of_eq (by simp) (by simp)
  · simp
  · exact ⟨by simp, ⟨by simp, by simp, by simp⟩,
      KeptMemory.of_eq (by simp) (by simp) (by simp) (by simp) (by simp), ⟨by simp, by simp, by simp⟩, by simp, by simp⟩

/-! ### The step -/

/-- The resolution of a pending trap: the stop, or the state the handler resumes with. -/
theorem resolveTrap_cases (r : TrapRecord) (s : State) :
    (s.cfg.trapPolicy = .fatal ∧ resolveTrap r s = .fault (.fatalTrap r)) ∨
    (s.cfg.trapPolicy = .handled ∧ Config.trapHandler s.draw (hartRegs s) s.mem r = none ∧
      resolveTrap r s = .fault (.handlerStopped r)) ∨
    (s.cfg.trapPolicy = .handled ∧ ∃ reply, Config.trapHandler s.draw (hartRegs s) s.mem r = some reply ∧
      resolveTrap r s = .next (resume reply s)) := by
  unfold resolveTrap
  cases hp : s.cfg.trapPolicy with
  | fatal => exact .inl ⟨rfl, rfl⟩
  | handled =>
    cases hh : Config.trapHandler s.draw (hartRegs s) s.mem r with
    | none => exact .inr (.inl ⟨rfl, rfl, by simp⟩)
    | some reply => exact .inr (.inr ⟨rfl, reply, rfl, by simp⟩)

/-- One address is ahead of another exactly if it lies less than half the address space after it, around the top too. -/
theorem isAhead_eq_true {c : Cfg} {p q : Nat} (hq : q < 2 ^ c.xlen.bits) :
    isAhead c p q = true ↔ ∃ d, 0 < d ∧ d < 2 ^ (c.xlen.bits - 1) ∧ q = (p + d) % 2 ^ c.xlen.bits := by
  simp only [isAhead, Bool.and_eq_true, decide_eq_true_eq]
  have h2 : 2 ^ c.xlen.bits = 2 * 2 ^ (c.xlen.bits - 1) := by cases c.xlen <;> rfl
  generalize 2 ^ c.xlen.bits = m at *
  generalize 2 ^ (c.xlen.bits - 1) = k at *
  have hm : p % m < m := Nat.mod_lt _ (by omega)
  have hp := Nat.div_add_mod p m
  constructor
  · intro h
    refine ⟨_, h.1, h.2, ?_⟩
    rw [Nat.add_mod_mod, show p + (q + (m - p % m)) = q + m * (p / m + 1) by rw [Nat.mul_add]; omega,
      Nat.add_mul_mod_self_left, Nat.mod_eq_of_lt hq]
  · rintro ⟨d, h0, hk, rfl⟩
    have : ((p + d) % m + (m - p % m)) % m = d := by
      rw [Nat.mod_add_mod, show p + d + (m - p % m) = d + m * (p / m + 1) by rw [Nat.mul_add]; omega,
        Nat.add_mul_mod_self_left, Nat.mod_eq_of_lt (by omega)]
    rw [this]
    exact ⟨h0, hk⟩

/-- What noting an instruction leaves of a constrained loop: one entered now and without a failure, or the one there
was, with the same entry and as many failures. -/
theorem observe_watch {i : Instr} {s : State} {w : LoopWatch} (h : (observe i s).watch = some w) :
    (w.since = s.draw ∧ w.failures = 0) ∨
    ∃ v, s.watch = some v ∧ w.since = v.since ∧ w.failures = v.failures := by
  unfold observe at h
  dsimp only at h
  split at h
  · simp only [Option.some.injEq] at h
    unfold watchReserve at h
    split at h
    · rename_i v hv
      exact .inr ⟨v, (Option.filter_eq_some_iff.1 hv).1, by simp [← h, watchRun], by simp [← h, watchRun]⟩
    · exact .inl ⟨by simp [← h], by simp [← h]⟩
  all_goals first
    | (obtain ⟨v, hv, h⟩ := Option.bind_eq_some_iff.1 h
       unfold watchStep at h
       split at h
       · simp only [Option.some.injEq] at h
         exact .inr ⟨v, hv, by simp [← h, watchRun], by simp [← h, watchRun]⟩
       · cases h)
    | cases h

/-- A step resolves a pending trap, or runs one instruction: a failed fetch traps, an undecodable word traps,
a decoded instruction runs, each on the state in which the step has started. -/
theorem step_cases (s : State) :
    (∃ r, s.trap = some r ∧ step s = resolveTrap r (startStep s)) ∨
    (s.trap = none ∧ fetch (startStep s) = .accessFault ∧
      step s = .next (trapped .instrAccessFault (curPc (startStep s)) (startStep s))) ∨
    (s.trap = none ∧ ∃ w, fetch (startStep s) = .word w ∧
      ((∃ r, decode s.cfg w = .rejected r ∧ step s = illegal w (startStep s)) ∨
       (∃ i, decode s.cfg w = .instr i ∧ step s = exec i (observe i (startStep s))))) := by
  unfold step stepStarted
  cases ht : s.trap with
  | some r => exact .inl ⟨r, rfl, by simp [ht]⟩
  | none =>
    simp only [startStep_trap, ht, runInstr]
    cases hf : fetch (startStep s) with
    | accessFault => exact .inr (.inl ⟨trivial, rfl, by simp [raise_eq]⟩)
    | word w =>
      refine .inr (.inr ⟨trivial, w, rfl, ?_⟩)
      simp only [runWord, startStep_cfg]
      cases hd : decode s.cfg w with
      | rejected r => exact .inl ⟨r, rfl, rfl⟩
      | instr i => exact .inr ⟨i, rfl, rfl⟩

end Sys2Proof.Machine
end

