-- ==== Sys2Proof/Laws/Access.lean ====
section
/-! SUPPORT. What an access reads and stores, byte by byte, and when no exception stands in its way. Proofs about
loads, stores and atomics cite these and unfold neither the byte lists nor the access check. -/

namespace Sys2Proof.Machine

/-! ### Addresses -/

theorem byteAddr_zero (c : Cfg) (a : Word) : byteAddr c a 0 = (truncX c.xlen a).toNat := by
  have h : (truncX c.xlen a).toNat < 2 ^ c.xlen.bits := by
    unfold truncX Xlen.bits
    cases c.xlen with
    | rv32 => simp only [BitVec.toNat_setWidth]; omega
    | rv64 => exact a.isLt
  simp [byteAddr, Nat.mod_eq_of_lt h]

theorem byteAddr_lt (c : Cfg) (a : Word) (k : Nat) : byteAddr c a k < 2 ^ c.xlen.bits :=
  Nat.mod_lt _ (Nat.two_pow_pos _)

/-- The bytes of an access that does not go round the whole address space are distinct. -/
theorem byteAddr_inj {c : Cfg} {a : Word} {n j k : Nat} (hn : n ≤ 2 ^ c.xlen.bits) (hj : j < n) (hk : k < n)
    (h : byteAddr c a j = byteAddr c a k) : j = k := by
  simp only [byteAddr] at h
  have h' := Nat.ModEq.add_left_cancel' _ h
  rwa [Nat.ModEq, Nat.mod_eq_of_lt (by omega), Nat.mod_eq_of_lt (by omega)] at h'

theorem byteAddrs_length (c : Cfg) (a : Word) (n : Nat) : (byteAddrs c a n).length = n := by simp [byteAddrs]

theorem byteAddrs_get (c : Cfg) (a : Word) (n k : Nat) (h : k < (byteAddrs c a n).length) :
    (byteAddrs c a n)[k] = byteAddr c a k := by simp [byteAddrs, byteAddr]

theorem byteAddrs_nodup (c : Cfg) (a : Word) (n : Nat) (hn : n ≤ 2 ^ c.xlen.bits) : (byteAddrs c a n).Nodup := by
  rw [List.nodup_iff_injective_get]
  intro i j h
  have hi := i.isLt; have hj := j.isLt
  simp only [byteAddrs_length] at hi hj
  apply Fin.ext
  simp only [List.get_eq_getElem, byteAddrs_get] at h
  exact byteAddr_inj hn hi hj h

/-! ### When an access is granted -/

/-- The access check passes exactly when the access is granted. -/
theorem accessCheck_eq_none {c : Cfg} {k : Access} {a : Word} {n : Nat} (hn : 0 < n) :
    accessCheck c k a n = none ↔ accessGranted c k a n := by
  have hb : bytesPermitted c k a n = true ↔ ∀ i, i < n → (regionAt c (byteAddr c a i)).any (regionPermits k) = true := by
    simp only [bytesPermitted, List.all_eq_true, mem_byteAddrs]
    constructor
    · intro h i hi
      have := h _ ⟨i, hi, rfl⟩
      cases hr : regionAt c (byteAddr c a i) with
      | none => simp [hr] at this
      | some r => simpa [hr] using this
    · rintro h b ⟨i, hi, rfl⟩
      have := h i hi
      cases hr : regionAt c (byteAddr c a i) with
      | none => simp [hr] at this
      | some r => simpa [hr] using this
  have hp : (if bytesPermitted c k a n = true then none else some (accessFaultOf k)) = (none : Option Exn) ↔
      ∀ i, i < n → (regionAt c (byteAddr c a i)).any (regionPermits k) = true := by
    rw [← hb]; by_cases h : bytesPermitted c k a n = true <;> simp [h]
  unfold accessCheck accessGranted
  dsimp only
  cases hr : regionAt c (truncX c.xlen a).toNat with
  | none =>
    simp only [reduceCtorEq, Option.any_none, Bool.false_eq_true, or_false, false_iff, not_and]
    intro h
    have := h 0 hn
    rw [byteAddr_zero, hr] at this
    simp at this
  | some r =>
    by_cases ha : (truncX c.xlen a).toNat % n = 0
    · simp only [ha, if_true, hp, true_or, and_true]
    · simp only [ha, if_false, false_or, Option.any_some]
      cases hm : misalignedPolicy c k r <;> simp [hp]

/-! ### Digits -/

theorem natToBytes_length (n v : Nat) : (natToBytes n v).length = n := by
  induction n generalizing v with
  | zero => rfl
  | succ n ih => simp [natToBytes, ih]

theorem natToBytes_get (n v k : Nat) (h : k < (natToBytes n v).length) :
    (natToBytes n v)[k] = BitVec.ofNat 8 (v / 256 ^ k) := by
  induction n generalizing v k with
  | zero => simp [natToBytes] at h
  | succ n ih =>
    cases k with
    | zero => simp [natToBytes]
    | succ k =>
      simp only [natToBytes, List.getElem_cons_succ]
      rw [ih, Nat.div_div_eq_div_mul, Nat.pow_succ, Nat.mul_comm]

theorem bytesToNat_digit (bs : List Byte) (k : Nat) (h : k < bs.length) :
    bytesToNat bs / 256 ^ k % 256 = bs[k].toNat := by
  induction bs generalizing k with
  | nil => simp at h
  | cons b bs ih =>
    have hb := b.isLt
    cases k with
    | zero => simp only [bytesToNat, Nat.pow_zero, Nat.div_one, List.getElem_cons_zero]; omega
    | succ k =>
      simp only [bytesToNat, List.getElem_cons_succ]
      rw [Nat.pow_succ, Nat.mul_comm (256 ^ k), ← Nat.div_div_eq_div_mul]
      have : (b.toNat + 256 * bytesToNat bs) / 256 = bytesToNat bs := by omega
      rw [this]
      exact ih k (by simpa using h)

theorem extract_digit {w : Nat} (v : BitVec w) (k : Nat) :
    v.extractLsb' (8 * k) 8 = BitVec.ofNat 8 (v.toNat / 256 ^ k) := by
  apply BitVec.eq_of_toNat_eq
  rw [BitVec.extractLsb'_toNat, BitVec.toNat_ofNat, Nat.shiftRight_eq_div_pow, Nat.pow_mul]

/-! ### What a read gives -/

/-- The digits of the number that bytes stand for are the bytes, in the byte order of the machine. -/
theorem bytesValue_digit {w n k : Nat} (c : Cfg) (bytes : List Byte) (hl : bytes.length = n) (hk : k < n)
    (hw : 8 * n ≤ w) :
    (BitVec.ofNat w (bytesValue c bytes)).extractLsb' (8 * digitIndex c n k) 8 = bytes[k] := by
  have hd : digitIndex c n k < n := by unfold digitIndex; split <;> omega
  rw [extract_digit]
  apply BitVec.eq_of_toNat_eq
  simp only [BitVec.toNat_ofNat]
  have h1 : ∀ m j : Nat, j < n → m % 2 ^ w / 256 ^ j % 2 ^ 8 = m / 256 ^ j % 256 := by
    intro m j hj
    have e : (256 : Nat) ^ j = 2 ^ (8 * j) := by rw [Nat.pow_mul]
    have h8 : (256 : Nat) = 2 ^ 8 := rfl
    rw [e, ← Nat.shiftRight_eq_div_pow, ← Nat.shiftRight_eq_div_pow, h8]
    apply Nat.eq_of_testBit_eq
    intro i
    simp only [Nat.testBit_mod_two_pow, Nat.testBit_shiftRight]
    by_cases hi : i < 8
    · have : 8 * j + i < w := by omega
      simp [hi, this]
    · simp [hi]
  rw [h1 _ _ hd]
  unfold bytesValue
  unfold digitIndex at hd ⊢
  subst hl
  split
  · rename_i hb
    rw [if_pos hb] at hd
    rw [bytesToNat_digit _ _ (by simpa using hd)]
    simp only [List.getElem_reverse]
    have e : bytes.length - 1 - (bytes.length - 1 - k) = k := by omega
    simp only [e]
  · rw [bytesToNat_digit _ _ hk]

/-- The bytes read are those of the value: `MemRead` in the byte order of the machine. -/
theorem memRead_holds {w : Nat} (a : Word) (n : Nat) (s : State) (hw : 8 * n ≤ w) :
    HoldsBytes s a n (BitVec.ofNat w (memRead a n s)) := by
  intro k hk
  rw [memRead, bytesValue_digit s.cfg _ (by simp [byteAddrs_length]) hk hw]
  simp only [List.getElem_map, byteAddrs_get]

/-- What the devices see of a read of some bytes. -/
theorem noteReads_eq (l : List Nat) (s : State) : noteReads l s = { s with io := readEvents s l ++ s.io } := by
  unfold noteReads readEvents
  simp only [List.isEmpty_iff]
  split <;> simp

/-- What the devices see of a read. -/
theorem noteRead_io (a : Word) (n : Nat) (s : State) : (noteRead a n s).io = deviceReads s a n ++ s.io := by
  rw [noteRead, noteReads_eq]; rfl

/-- The devices see a read only if a byte of it is theirs. -/
theorem noteRead_noDevice {a : Word} {n : Nat} {s : State} (h : NoDevice s.cfg a n) : noteRead a n s = s := by
  have : (byteAddrs s.cfg a n).filter (isIo s.cfg) = [] := by
    rw [List.filter_eq_nil_iff]
    intro b hb
    obtain ⟨k, hk, rfl⟩ := mem_byteAddrs.1 hb
    simp [h k hk]
  simp [noteRead, noteReads, this]

theorem noteRead_onlyRead (a : Word) (n : Nat) (s : State) : OnlyRead s (noteRead a n s) a n :=
  ⟨fun b => readByte_congr (by simp) (by simp) (by simp) b, by simp, noteRead_io a n s⟩

/-! ### What a store leaves -/

theorem storeBytes_get_mem (l : List Host.Cell) (s : State) (hl : (l.map Prod.fst).Nodup) {c : Host.Cell}
    (hc : c ∈ l) (hio : isIo s.cfg c.1 = false) : Memory.get (storeBytes l s).mem c.1 = c.2 := by
  induction l generalizing s with
  | nil => simp at hc
  | cons d l ih =>
    obtain ⟨a, v⟩ := d
    simp only [List.map_cons, List.nodup_cons] at hl
    rw [storeBytes]
    rcases List.mem_cons.1 hc with rfl | hc
    · rw [storeBytes_get_other _ _ _ (fun e he h => hl.1 (List.mem_map.2 ⟨e, he, h⟩))]
      dsimp only at hio ⊢
      rw [if_neg (by simp [hio])]
      exact Memory.get_set_same _ _ _
    · apply ih _ hl.2 hc
      split
      · exact hio
      · exact hio

theorem storeBytes_stale (l : List Host.Cell) (s : State) {c : Host.Cell} (h : c ∈ (storeBytes l s).stale) :
    c ∈ s.stale ∨ c.1 ∈ l.map Prod.fst := by
  induction l generalizing s with
  | nil => exact .inl h
  | cons d l ih =>
    rw [storeBytes] at h
    rcases ih _ h with h | h
    · split at h
      · exact .inl h
      · unfold setMainByte at h
        dsimp only at h
        split at h
        · exact .inl h
        · rcases List.mem_cons.1 h with h | h
          · exact .inr (by simp [h])
          · exact .inl h
    · exact .inr (by simp [h])

theorem storeCells_fst (c : Cfg) (a : Word) (n v : Nat) : (storeCells c a n v).map Prod.fst = byteAddrs c a n := by
  unfold storeCells
  dsimp only
  rw [List.map_fst_zip]
  rw [byteAddrs_length]
  split <;> simp [natToBytes_length]

theorem storeCells_mem (c : Cfg) (a : Word) (n v k : Nat) (hk : k < n) :
    (byteAddr c a k, BitVec.ofNat 8 (v / 256 ^ digitIndex c n k)) ∈ storeCells c a n v := by
  have hl : k < (storeCells c a n v).length := by
    have := congrArg List.length (storeCells_fst c a n v)
    simp only [List.length_map, byteAddrs_length] at this
    omega
  have h : (storeCells c a n v)[k] = (byteAddr c a k, BitVec.ofNat 8 (v / 256 ^ digitIndex c n k)) := by
    simp only [storeCells, List.getElem_zip, byteAddrs_get, Prod.mk.injEq, true_and]
    unfold digitIndex
    split
    · simp only [List.getElem_reverse, natToBytes_length, natToBytes_get]
    · simp only [natToBytes_get]
  rw [← h]
  exact List.getElem_mem _

/-- `MemWrite` stores the low bytes of the value and nothing else. -/
theorem memWrite_stored {w : Nat} (a : Word) (n : Nat) (v : BitVec w) (s : State) (hn : n ≤ 2 ^ s.cfg.xlen.bits) :
    Stored s (memWrite a n v.toNat s) a n v := by
  refine ⟨fun k hk hio => ?_, fun b hb => ?_, fun c hc => ?_⟩
  · rw [extract_digit]
    simp only [readByte, memWrite_cfg, hio, Bool.false_eq_true, if_false, memWrite_mem]
    exact storeBytes_get_mem _ s (by rw [storeCells_fst]; exact byteAddrs_nodup _ _ _ hn)
      (storeCells_mem s.cfg a n v.toNat k hk) hio
  · apply readByte_memWrite_other
    intro h
    obtain ⟨k, hk, rfl⟩ := mem_byteAddrs.1 h
    exact hb k hk rfl
  · have hs : (memWrite a n v.toNat s).stale = (storeBytes (storeCells s.cfg a n v.toNat) s).stale := by
      simp [memWrite, writeCells]
    rw [hs] at hc
    rcases storeBytes_stale _ _ hc with h | h
    · exact .inl h
    · rw [storeCells_fst] at h
      obtain ⟨k, hk, e⟩ := mem_byteAddrs.1 h
      exact .inr ⟨k, hk, e.symm⟩

theorem storeCells_eq {w : Nat} (c : Cfg) (a : Word) (n : Nat) (v : BitVec w) :
    storeCells c a n v.toNat =
      (List.range n).map (fun k => (byteAddr c a k, v.extractLsb' (8 * digitIndex c n k) 8)) := by
  have hl : (storeCells c a n v.toNat).length = n := by
    have := congrArg List.length (storeCells_fst c a n v.toNat)
    simpa [byteAddrs_length] using this
  apply List.ext_getElem (by simp [hl])
  intro k h1 h2
  rw [List.getElem_map, List.getElem_range, extract_digit]
  simp only [storeCells, List.getElem_zip, byteAddrs_get, Prod.mk.injEq, true_and]
  unfold digitIndex
  split
  · simp only [List.getElem_reverse, natToBytes_length, natToBytes_get]
  · simp only [natToBytes_get]

/-- What the devices see of a store of some bytes. -/
theorem writeCells_io (l : List Host.Cell) (s : State) : (writeCells l s).io = writeEvents s.cfg l ++ s.io := by
  unfold writeCells noteWrite writeEvents
  simp only [storeBytes_cfg, List.isEmpty_iff]
  split <;> simp

/-- What the devices see of a store. -/
theorem memWrite_io {w : Nat} (a : Word) (n : Nat) (v : BitVec w) (s : State) :
    (memWrite a n v.toNat s).io = deviceWrites s.cfg a n v ++ s.io := by
  rw [memWrite, writeCells_io, storeCells_eq]; rfl

/-! ### What the environment agent leaves -/

/-- A byte of main memory after several writes: the last value written to it. -/
theorem readByte_storeBytes (l : List Host.Cell) (s : State) (a : Nat) (h : isIo s.cfg a = false) :
    readByte (storeBytes l s) a = lastWritten l a (readByte s a) := by
  simp only [readByte, storeBytes_cfg, h, Bool.false_eq_true, if_false]
  induction l generalizing s with
  | nil => rfl
  | cons c l ih =>
    rw [storeBytes, ih _ (by split <;> exact h)]
    unfold lastWritten
    rw [List.foldl_cons]
    congr 1
    by_cases hc : c.1 = a
    · subst hc
      rw [if_neg (by simp [h]), if_pos rfl]
      exact Memory.get_set_same _ _ _
    · rw [if_neg hc]
      split
      · rfl
      · exact Memory.get_set_ne _ (Ne.symm hc) _

theorem StaleAfter.of_eq {s t u : State} {p : Host.Cell → Prop} (h : StaleAfter s t p) (hm : u.mem = t.mem)
    (hc : u.cfg = t.cfg) (hd : u.draw = t.draw) (hs : u.stale = t.stale) : StaleAfter s u p := by
  unfold StaleAfter
  simp only [hs, readByte_congr hm hc hd]
  exact h

/-- What may still be fetched after several writes. -/
theorem storeBytes_staleAfter (l : List Host.Cell) (s : State) :
    StaleAfter s (storeBytes l s) (fun c => c ∈ l) := by
  induction l generalizing s with
  | nil => exact ⟨fun c h => h, fun a _ h => absurd rfl h, fun c h => .inl h⟩
  | cons d l ih =>
    obtain ⟨a, v⟩ := d
    rw [storeBytes]
    by_cases hio : isIo s.cfg a = true
    · rw [if_pos hio]
      obtain ⟨h1, h2, h3⟩ := ih s
      refine ⟨h1, h2, fun c hc => ?_⟩
      rcases h3 c hc with h | h | h
      · exact .inl h
      · exact .inr (.inl h)
      · exact .inr (.inr (List.mem_cons_of_mem _ h))
    · rw [if_neg hio]
      have hio : isIo s.cfg a = false := by simpa using hio
      obtain ⟨h1, h2, h3⟩ := ih (setMainByte a v s)
      have hr : ∀ b, readByte (setMainByte a v s) b = if b = a then v else readByte s b := by
        intro b
        by_cases hb : b = a
        · subst hb
          rw [if_pos rfl]
          simp only [readByte, setMainByte_cfg, hio, Bool.false_eq_true, if_false]
          exact Memory.get_set_same _ _ _
        · rw [if_neg hb]
          have hm : Memory.get (setMainByte a v s).mem b = Memory.get s.mem b := Memory.get_set_ne _ hb _
          simp only [readByte, setMainByte_cfg, setMainByte_draw, hm]
      have hold : readByte s a = Memory.get s.mem a := by simp [readByte, hio]
      have hst : (setMainByte a v s).stale = if readByte s a = v then s.stale else (a, readByte s a) :: s.stale := by
        rw [hold]; rfl
      refine ⟨fun c hc => h1 c (by rw [hst]; split <;> simp [hc]), fun b hb hne => ?_, fun c hc => ?_⟩
      · by_cases he : b = a ∧ readByte s a ≠ v
        · obtain ⟨rfl, he⟩ := he
          exact h1 _ (by rw [hst, if_neg he]; simp)
        · have e : readByte (setMainByte a v s) b = readByte s b := by
            rw [hr]
            split
            · rename_i hba
              subst hba
              by_contra hc
              exact he ⟨rfl, fun h => hc h.symm⟩
            · rfl
          rw [← e] at hne ⊢
          exact h2 b hb hne
      · rcases h3 c hc with h | h | h
        · rw [hst] at h
          split at h
          · exact .inl h
          · rcases List.mem_cons.1 h with h | h
            · exact .inr (.inl (by rw [h]))
            · exact .inl h
        · rw [hr] at h
          split at h
          · rename_i hca
            exact .inr (.inr (by rw [← h, ← hca]; exact List.mem_cons_self))
          · exact .inr (.inl h)
        · exact .inr (.inr (List.mem_cons_of_mem _ h))

theorem touchesLr_iff {r : Reservation} {l : List Host.Cell} :
    touchesLr r l = true ↔ ∃ c ∈ l, r.lrAddr ≤ c.1 ∧ c.1 < r.lrAddr + r.lrLen := by simp [touchesLr]

theorem touchesSet_iff {r : Reservation} {l : List Host.Cell} :
    touchesSet r l = true ↔ ∃ c ∈ l, inReservation r c.1 = true := by simp [touchesSet]

/-- What the writes of the environment agent do. -/
theorem envWrite_spec (turn : Nat) (l : List Host.Cell) (s : State) : AgentWrote turn l s (envWrite turn l s) := by
  refine ⟨fun a h => ?_, (storeBytes_staleAfter l s).of_eq rfl (by simp) (by simp) rfl, fun c hc => storeBytes_stale l s hc, by simp, fun h => by simp [envWrite, h], fun r h => ?_⟩
  · rw [← readByte_storeBytes l s a h]
    exact readByte_congr rfl (by simp) (by simp) a
  · simp only [envWrite_reservation, h, Option.bind_some, reservationAfter]
    refine ⟨fun hl => if_pos (touchesLr_iff.2 hl), fun hn => ?_, fun hn hs => ?_⟩
    · have h1 : touchesLr r l = false := by
        rw [Bool.eq_false_iff, ne_eq, touchesLr_iff]
        rintro ⟨c, hc, hi⟩
        exact (hn c hc).2 hi
      have h2 : touchesSet r l = false := by
        rw [Bool.eq_false_iff, ne_eq, touchesSet_iff]
        rintro ⟨c, hc, hi⟩
        exact absurd hi (by simp [(hn c hc).1])
      simp [h1, h2]
    · have h1 : touchesLr r l = false := by
        rw [Bool.eq_false_iff, ne_eq, touchesLr_iff]
        rintro ⟨c, hc, hi⟩
        exact hn c hc hi
      simp [h1, touchesSet_iff.2 hs]

/-- What the writes of the environment agent do to the promise to a constrained loop. -/
theorem envWrite_loop (turn : Nat) (l : List Host.Cell) (s : State) : LoopAfterWrites l s (envWrite turn l s) := by
  refine ⟨fun h => by simp [envWrite, h], fun w h => ⟨fun hs => ?_, fun hn => ?_⟩⟩
  · simp [envWrite, h, Option.filter, touchesSet_iff.2 hs]
  · have : touchesSet (loopReservation s.cfg w) l = false := by
      rw [Bool.eq_false_iff, ne_eq, touchesSet_iff]
      rintro ⟨c, hc, hi⟩
      exact absurd hi (by simp [hn c hc])
    simp [envWrite, h, Option.filter, this]

/-- What a turn of the environment agent leaves. -/
theorem agentTurn_spec (turn : Nat) (s : State) : AgentTurn turn s (agentTurn turn s) := by
  refine ⟨KeptX.of_eq (by simp) (by simp), KeptF.of_eq (by simp) (by simp),
    ⟨⟨by simp, by simp⟩, ⟨by simp, by simp, by simp⟩, by simp, by simp, by simp⟩, by simp, by simp, fun h => ?_, fun h => ?_⟩
  · have e : agentTurn turn s = s := by simp [agentTurn, h]
    rw [e]
    exact ⟨rfl, rfl, rfl, rfl, rfl⟩
  · have e : agentTurn turn s = envWrite turn (wrapCells s.cfg (Config.agentWrites s.draw turn)) s := by
      simp [agentTurn, h]
    rw [e]
    exact ⟨envWrite_spec turn _ s, envWrite_loop turn _ s⟩

theorem turnBefore_silent {turn : Nat} {s : State} (h : s.cfg.agentWrites = false) : turnBefore turn s = s := by
  simp [turnBefore, agentTurn, h]

/-- Two values whose bytes are the same bytes of memory are equal. -/
theorem holdsBytes_unique {n : Nat} {a : Word} {s : State} {u v : BitVec (8 * n)} (hu : HoldsBytes s a n u)
    (hv : HoldsBytes s a n v) : u = v := by
  have hd : ∀ j, j < n → u.extractLsb' (8 * j) 8 = v.extractLsb' (8 * j) 8 := by
    intro j hj
    have : ∃ k, k < n ∧ digitIndex s.cfg n k = j := by
      unfold digitIndex
      split
      · exact ⟨n - 1 - j, by omega, by omega⟩
      · exact ⟨j, hj, rfl⟩
    obtain ⟨k, hk, rfl⟩ := this
    rw [hu k hk, hv k hk]
  ext i hi
  have := congrArg (fun x => x.getLsbD (i % 8)) (hd (i / 8) (by omega))
  simp only [BitVec.getLsbD_extractLsb', show i % 8 < 8 from Nat.mod_lt _ (by omega), decide_true, Bool.true_and,
    show 8 * (i / 8) + i % 8 = i from by omega] at this
  simpa [BitVec.getLsbD_eq_getElem hi] using this

/-! ### Accesses of several memory operations -/

theorem singleAccess_iff {c : Cfg} {a : Word} {n : Nat} : singleAccess c a n = true ↔ Single c a n := by
  simp [singleAccess, Single]

theorem shuffle_perm {α : Type} (pick : Nat → Nat) (l : List α) : (shuffle pick l).Perm l := by
  induction l with
  | nil => exact List.Perm.refl _
  | cons x l ih =>
    exact (List.perm_insertIdx x _ (by rw [ih.length_eq]; exact Nat.le_of_lt_succ (Nat.mod_lt _ (Nat.succ_pos _)))).trans
      (ih.cons x)

/-- Consecutive offsets are cut into consecutive pieces that make them up. -/
theorem pieces_range' (cut : Nat → Bool) (m k : Nat) :
    (pieces cut (List.range' k m)).flatten = List.range' k m ∧
    (∀ p ∈ pieces cut (List.range' k m), ∃ j l, 0 < l ∧ p = List.range' j l) ∧
    ((∀ j, cut j = true) → ∀ p ∈ pieces cut (List.range' k m), p.length = 1) := by
  induction m generalizing k with
  | zero => simp [pieces]
  | succ m ih =>
    obtain ⟨h1, h2, h3⟩ := ih (k + 1)
    rw [List.range'_succ]
    cases m with
    | zero =>
      simp only [List.range'_zero, pieces, List.flatten_cons, List.flatten_nil, List.append_nil, List.mem_singleton,
        forall_eq, List.length_singleton, implies_true, and_true, true_and]
      exact ⟨k, 1, Nat.one_pos, rfl⟩
    | succ m =>
      rw [List.range'_succ] at h1 h2 h3 ⊢
      rw [pieces]
      cases hp : pieces cut ((k + 1) :: List.range' (k + 1 + 1) m) with
      | nil => rw [hp] at h1; simp at h1
      | cons p more =>
        rw [hp] at h1 h2 h3
        dsimp only
        split
        · refine ⟨by simpa using h1, ?_, ?_⟩
          · rintro q hq
            rcases List.mem_cons.1 hq with rfl | hq
            · exact ⟨k, 1, Nat.one_pos, rfl⟩
            · exact h2 q hq
          · rintro hc q hq
            rcases List.mem_cons.1 hq with rfl | hq
            · rfl
            · exact h3 hc q hq
        · rename_i hcut
          refine ⟨by simpa using h1, ?_, fun hc => absurd (hc _) hcut⟩
          rintro q hq
          rcases List.mem_cons.1 hq with rfl | hq
          · obtain ⟨j, l, hl, rfl⟩ := h2 p List.mem_cons_self
            have hj : j = k + 1 := by
              cases l with
              | zero => omega
              | succ l =>
                rw [List.range'_succ] at h1
                simpa using congrArg List.head? h1
            subst hj
            exact ⟨k, l + 1, Nat.succ_pos _, by rw [List.range'_succ]⟩
          · exact h2 q (List.mem_cons_of_mem _ hq)

/-- The memory operations the free values choose are such as the spec allows. -/
theorem components_mayBe (c : Cfg) (a : Word) (n half draw : Nat) :
    MayBeParts c a n (components c a n half draw) := by
  unfold components
  dsimp only
  generalize hc : (fun k => !decide ((truncX c.xlen a).toNat % n = 0) || Config.componentEnds draw k) = cut
  obtain ⟨h1, h2, h3⟩ := pieces_range' cut n 0
  rw [← List.range_eq_range'] at h1 h2 h3
  have hp := shuffle_perm (Config.componentOrder draw half) (pieces cut (List.range n))
  refine ⟨hp.flatten.trans (by rw [h1]), fun p hm => h2 p (hp.mem_iff.1 hm), fun hm p hq => ?_⟩
  refine h3 (fun j => ?_) p (hp.mem_iff.1 hq)
  subst hc
  simp [hm]

/-- Reading in parts is what `ReadInParts` says, of any value whose bytes are those found. -/
theorem readParts_spec {w : Nat} (a : Word) (n : Nat) (v : BitVec w) (parts : List (List Nat)) (turn : Nat) (s : State)
    (hn : parts.flatten.Nodup)
    (hv : ∀ k ∈ parts.flatten, v.extractLsb' (8 * digitIndex s.cfg n k) 8 = (readParts a parts turn s).1 k) :
    ReadInParts a n v turn parts s (readParts a parts turn s).2 := by
  induction parts generalizing turn s with
  | nil => exact ⟨rfl, rfl, rfl, rfl, rfl⟩
  | cons p rest ih =>
    rw [List.flatten_cons, List.nodup_append] at hn
    refine ⟨fun k hk => ?_, ?_⟩
    · rw [hv k (by simp [hk])]
      simp [readParts, hk]
    · rw [← noteReads_eq]
      refine ih _ _ hn.2.1 fun k hk => ?_
      have hkp : k ∉ p := fun h => hn.2.2 k h k hk rfl
      have := hv k (by rw [List.flatten_cons]; exact List.mem_append_right _ hk)
      simpa [readParts, hkp] using this

/-- Storing in parts is what `StoredInParts` says. -/
theorem writeParts_spec {w : Nat} (a : Word) (n : Nat) (v : BitVec w) (parts : List (List Nat)) (turn : Nat) (s : State)
    (hn : n ≤ 2 ^ s.cfg.xlen.bits) (hp : parts.flatten.Nodup) (hk : ∀ k ∈ parts.flatten, k < n) :
    StoredInParts a n v turn parts s (writeParts (storeCells s.cfg a n v.toNat) parts turn s) := by
  induction parts generalizing turn s with
  | nil => exact ⟨rfl, rfl, rfl, rfl, rfl⟩
  | cons p rest ih =>
    rw [List.flatten_cons, List.nodup_append] at hp
    have hkp : ∀ k ∈ p, k < n := fun k h => hk k (by simp [h])
    have hc : p.filterMap (fun k => (storeCells s.cfg a n v.toNat)[k]?) = storedCells s.cfg a n v p := by
      unfold storedCells
      rw [← List.filterMap_eq_map]
      refine List.filterMap_congr fun k h => ?_
      simp [storeCells_eq, hkp k h]
    refine ⟨writeCells (storedCells s.cfg a n v p) (turnBefore turn s),
      ⟨by simp, by simp, ⟨by simp, by simp⟩, fun k h hio => ?_, fun b hb => ?_, fun c hcs => ?_, ?_⟩, ?_⟩
    · simp only [turnBefore_cfg] at hio ⊢
      have hnd : ((storedCells s.cfg a n v p).map Prod.fst).Nodup := by
        simp only [storedCells, List.map_map]
        refine (List.nodup_map_iff_inj_on hp.1).2 fun j hj l hl e => ?_
        exact byteAddr_inj hn (hkp j hj) (hkp l hl) e
      have hm : (byteAddr s.cfg a k, v.extractLsb' (8 * digitIndex s.cfg n k) 8) ∈ storedCells s.cfg a n v p :=
        List.mem_map.2 ⟨k, h, rfl⟩
      simp only [readByte, writeCells_cfg, turnBefore_cfg, hio, Bool.false_eq_true, if_false, writeCells_mem]
      exact storeBytes_get_mem _ _ hnd hm (by simpa using hio)
    · simp only [turnBefore_cfg] at hb ⊢
      simp only [readByte, writeCells_cfg, writeCells_draw, writeCells_mem]
      rw [storeBytes_get_other]
      rintro d hd rfl
      obtain ⟨k, h, rfl⟩ := List.mem_map.1 hd
      exact hb k h rfl
    · have hs : (writeCells (storedCells s.cfg a n v p) (turnBefore turn s)).stale =
          (storeBytes (storedCells s.cfg a n v p) (turnBefore turn s)).stale := by simp [writeCells]
      rw [hs] at hcs
      rcases storeBytes_stale _ _ hcs with h | h
      · exact .inl h
      · right
        simp only [storedCells, List.map_map, List.mem_map] at h
        obtain ⟨k, h, e⟩ := h
        exact ⟨k, h, by rw [turnBefore_cfg]; exact e.symm⟩
    · rw [writeCells_io, turnBefore_cfg]
    · have := ih (turn + 1) (writeCells (storedCells s.cfg a n v p) (turnBefore turn s)) (by simpa using hn) hp.2.1
        (fun k h => hk k (by rw [List.flatten_cons]; exact List.mem_append_right _ h))
      rw [writeParts, hc]
      simpa using this

/-- Where the agent does not write, what is read in parts are the bytes that were there. -/
theorem ReadInParts.silent {w : Nat} {a : Word} {n : Nat} {v : BitVec w} {parts : List (List Nat)} {turn : Nat}
    {s t : State} (h : ReadInParts a n v turn parts s t) (hs : s.cfg.agentWrites = false) :
    (∀ k ∈ parts.flatten, v.extractLsb' (8 * digitIndex s.cfg n k) 8 = readByte s (byteAddr s.cfg a k)) ∧
      t.mem = s.mem ∧ t.stale = s.stale ∧ KeptReservation s t := by
  induction parts generalizing turn s with
  | nil => exact ⟨by simp, h.1, h.2.1, h.2.2.2⟩
  | cons p rest ih =>
    simp only [ReadInParts, turnBefore_silent hs] at h
    obtain ⟨h1, h2, h3, h4⟩ := ih h.2 hs
    refine ⟨fun k hk => ?_, h2, h3, h4⟩
    rw [List.flatten_cons] at hk
    rcases List.mem_append.1 hk with hk | hk
    · exact h.1 k hk
    · exact h1 k hk

/-- Where the agent does not write, what is stored in parts is there in the end. -/
theorem StoredInParts.silent {w : Nat} {a : Word} {n : Nat} {v : BitVec w} {parts : List (List Nat)} {turn : Nat}
    {s t : State} (h : StoredInParts a n v turn parts s t) (hs : s.cfg.agentWrites = false)
    (hn : n ≤ 2 ^ s.cfg.xlen.bits) (hp : parts.flatten.Nodup) (hk : ∀ k ∈ parts.flatten, k < n)
    (hc : t.cfg = s.cfg) (hd : t.draw = s.draw) :
    (∀ k ∈ parts.flatten, isIo s.cfg (byteAddr s.cfg a k) = false →
      readByte t (byteAddr s.cfg a k) = v.extractLsb' (8 * digitIndex s.cfg n k) 8) ∧
    (∀ b, (∀ k ∈ parts.flatten, b ≠ byteAddr s.cfg a k) → readByte t b = readByte s b) ∧
    (∀ c ∈ t.stale, c ∈ s.stale ∨ ∃ k ∈ parts.flatten, c.1 = byteAddr s.cfg a k) ∧ KeptReservation s t := by
  induction parts generalizing turn s with
  | nil => exact ⟨by simp, fun b _ => readByte_congr h.1 hc hd b, fun c hm => .inl (h.2.1 ▸ hm), h.2.2.2⟩
  | cons p rest ih =>
    simp only [StoredInParts, turnBefore_silent hs] at h
    obtain ⟨u, ⟨uc, ud, ur, h1, h2, h3, -⟩, h⟩ := h
    rw [List.flatten_cons, List.nodup_append] at hp
    rw [List.flatten_cons] at hk ⊢
    obtain ⟨g1, g2, g3, g4⟩ := ih h (by rw [uc]; exact hs) (by rw [uc]; exact hn) hp.2.1
      (fun k h => hk k (List.mem_append_right _ h)) (by rw [uc]; exact hc) (by rw [ud]; exact hd)
    rw [uc] at g1 g2 g3
    refine ⟨fun k h hio => ?_, fun b hb => ?_, fun c hm => ?_, g4.1.trans ur.1, g4.2.trans ur.2⟩
    · rcases List.mem_append.1 h with h | h
      · rw [g2 _ fun j hj e => ?_]
        · exact h1 k h hio
        · have := byteAddr_inj hn (hk k (List.mem_append_left _ h)) (hk j (List.mem_append_right _ hj)) e
          exact hp.2.2 k h j hj this
      · exact g1 k h hio
    · rw [g2 b fun k h => hb k (List.mem_append_right _ h), h2 b fun k h => hb k (List.mem_append_left _ h)]
    · rcases g3 c hm with hm | ⟨k, hk, e⟩
      · rcases h3 c hm with hm | ⟨k, hk, e⟩
        · exact .inl hm
        · exact .inr ⟨k, List.mem_append_left _ hk, e⟩
      · exact .inr ⟨k, List.mem_append_right _ hk, e⟩

theorem MayBeParts.lt {c : Cfg} {a : Word} {n : Nat} {parts : List (List Nat)} (h : MayBeParts c a n parts) :
    ∀ k ∈ parts.flatten, k < n := fun k hk => by simpa using h.1.mem_iff.1 hk

theorem MayBeParts.nodup {c : Cfg} {a : Word} {n : Nat} {parts : List (List Nat)} (h : MayBeParts c a n parts) :
    parts.flatten.Nodup := h.1.nodup_iff.2 List.nodup_range

/-- What a read does, in one memory operation or in several. -/
theorem readAccess_spec {w : Nat} (a : Word) (n : Nat) (s : State) (hw : 8 * n ≤ w) :
    LoadAccess s (readAccess a n s).2 a n (BitVec.ofNat w (readAccess a n s).1) := by
  by_cases h : singleAccess s.cfg a n = true
  · have e : readAccess a n s = (memRead a n s, noteRead a n s) := if_pos h
    have ho := noteRead_onlyRead a n s
    rw [e]
    exact ⟨fun _ => ⟨memRead_holds a n s hw, ho, by simp [KeptReservation]⟩,
      fun hs => absurd (singleAccess_iff.1 h) hs,
      fun _ => ⟨memRead_holds a n s hw, ho.1, ho.2.1, by simp [KeptReservation]⟩⟩
  · have e : readAccess a n s =
        (bytesValue s.cfg ((List.range n).map (readParts a (components s.cfg a n 0 s.draw) 0 s).1),
          (readParts a (components s.cfg a n 0 s.draw) 0 s).2) := if_neg h
    have hm := components_mayBe s.cfg a n 0 s.draw
    have hr : ReadInParts a n (BitVec.ofNat w (readAccess a n s).1) 0 (components s.cfg a n 0 s.draw) s
        (readAccess a n s).2 := by
      rw [e]
      refine readParts_spec a n _ _ 0 s hm.nodup fun k hk => ?_
      rw [bytesValue_digit s.cfg _ (by simp) (hm.lt k hk) hw]
      simp
    refine ⟨fun hs => absurd (singleAccess_iff.2 hs) h, fun _ => ⟨_, hm, hr⟩, fun hs => ?_⟩
    obtain ⟨h1, h2, h3, h4⟩ := hr.silent hs
    exact ⟨fun k hk => h1 k (hm.1.mem_iff.2 (by simpa using hk)),
      fun b => readByte_congr h2 (by simp) (by simp) b, h3, h4⟩

/-- What a store does, in one memory operation or in several. -/
theorem writeAccess_parts {w : Nat} (first : Nat) (a : Word) (n : Nat) (v : BitVec w) (s : State)
    (hn : n ≤ 2 ^ s.cfg.xlen.bits) :
    (Single s.cfg a n → writeAccess first a n v.toNat s = memWrite a n v.toNat s) ∧
    (¬ Single s.cfg a n → ∃ parts, MayBeParts s.cfg a n parts ∧
      StoredInParts a n v first parts s (writeAccess first a n v.toNat s)) ∧
    (s.cfg.agentWrites = false → Stored s (writeAccess first a n v.toNat s) a n v ∧
      KeptReservation s (writeAccess first a n v.toNat s)) := by
  by_cases h : singleAccess s.cfg a n = true
  · have e : writeAccess first a n v.toNat s = memWrite a n v.toNat s := if_pos h
    rw [e]
    exact ⟨fun _ => rfl, fun hs => absurd (singleAccess_iff.1 h) hs,
      fun _ => ⟨memWrite_stored a n v s hn, by simp [KeptReservation]⟩⟩
  · have e : writeAccess first a n v.toNat s =
        writeParts (storeCells s.cfg a n v.toNat) (components s.cfg a n 1 s.draw) first s := if_neg h
    have hm := components_mayBe s.cfg a n 1 s.draw
    have hr := writeParts_spec a n v (components s.cfg a n 1 s.draw) first s hn hm.nodup hm.lt
    rw [← e] at hr
    refine ⟨fun hs => absurd (singleAccess_iff.2 hs) h, fun _ => ⟨_, hm, hr⟩, fun hs => ?_⟩
    obtain ⟨h1, h2, h3, h4⟩ := hr.silent hs hn hm.nodup hm.lt (by simp) (by simp)
    have hmem : ∀ k, k < n → k ∈ (components s.cfg a n 1 s.draw).flatten :=
      fun k hk => hm.1.mem_iff.2 (by simpa using hk)
    refine ⟨⟨fun k hk => h1 k (hmem k hk), fun b hb => h2 b fun k hk => hb k (hm.lt k hk), fun c hc => ?_⟩, h4⟩
    rcases h3 c hc with h | ⟨k, hk, e⟩
    · exact .inl h
    · exact .inr ⟨k, hm.lt k hk, e⟩

/-- What a store does that is no part of an AMO. -/
theorem writeAccess_spec {w : Nat} (a : Word) (n : Nat) (v : BitVec w) (s : State) (hn : n ≤ 2 ^ s.cfg.xlen.bits) :
    StoreAccess s (writeAccess 0 a n v.toNat s) a n v := by
  obtain ⟨h1, h2, h3⟩ := writeAccess_parts 0 a n v s hn
  refine ⟨fun h => ?_, h2, h3⟩
  rw [h1 h]
  exact ⟨memWrite_stored a n v s hn, memWrite_io a n v s, by simp [KeptReservation]⟩

/-- What the two halves of an AMO do. -/
theorem amoAccess_spec {n : Nat} (a : Word) (new : BitVec (8 * n)) (s : State) (hn : n ≤ 2 ^ s.cfg.xlen.bits) :
    AmoAccess s (writeAccess n a n new.toNat (readAccess a n s).2) a n
      (BitVec.ofNat (8 * n) (readAccess a n s).1) new := by
  have hr := readAccess_spec (w := 8 * n) a n s (Nat.le_refl _)
  obtain ⟨h1, h2, h3⟩ := writeAccess_parts n a n new (readAccess a n s).2 (by simpa using hn)
  simp only [readAccess_cfg] at h1 h2 h3
  refine ⟨fun h => ?_, fun h => ?_, fun h => ?_⟩
  · obtain ⟨g1, g2, g3⟩ := hr.1 h
    have hw := memWrite_stored a n new (readAccess a n s).2 (by simpa using hn)
    rw [h1 h]
    refine ⟨g1, ⟨by simpa using hw.1, fun b hb => ?_, fun c hc => ?_⟩, ?_, ?_, ?_⟩
    · rw [hw.2.1 b (by simpa using hb), g2.1]
    · have := hw.2.2 c hc
      rwa [g2.2.1, readAccess_cfg] at this
    · rw [memWrite_io, g2.2.2, readAccess_cfg, List.append_assoc]
    · simpa using g3.1
    · simpa using g3.2
  · obtain ⟨reads, m1, g1⟩ := hr.2.1 h
    obtain ⟨writes, m2, g2⟩ := h2 h
    exact ⟨_, reads, writes, m1, m2, by simp, by simp, g1, g2⟩
  · obtain ⟨g1, g2, g3, g4⟩ := hr.2.2 h
    obtain ⟨hw, hk⟩ := h3 h
    refine ⟨g1, ⟨by simpa using hw.1, fun b hb => ?_, fun c hc => ?_⟩, hk.1.trans g4.1, hk.2.trans g4.2⟩
    · rw [hw.2.1 b (by simpa using hb), g2]
    · have := hw.2.2 c hc
      rwa [g3, readAccess_cfg] at this

end Sys2Proof.Machine
end

