-- ==== Sys2Proof/Laws/Decode.lean ====
section
/-! SUPPORT. The fields of a word and the word of the fields are inverse, each immediate survives its scattering
through the fields, and decoding goes by the fields. Proofs about encodings cite these and unfold no bit. -/

namespace Sys2Proof

/-- Appending bits is multiplying and adding. -/
theorem toNat_append' {n m : Nat} (x : BitVec n) (y : BitVec m) : (x ++ y).toNat = x.toNat * 2 ^ m + y.toNat := by
  rw [BitVec.toNat_append, Nat.shiftLeft_eq, ← Nat.shiftLeft_eq, Nat.shiftLeft_add_eq_or_of_lt y.isLt]

/-! ### Words and fields -/

theorem Parts.word_toNat (p : Parts) : p.word.toNat =
    ((((p.f7.toNat * 2 ^ 5 + p.rs2.toNat) * 2 ^ 5 + p.rs1.toNat) * 2 ^ 3 + p.f3.toNat) * 2 ^ 5 + p.rd.toNat) * 2 ^ 7 +
      p.op.toNat := by
  simp only [Parts.word, toNat_append']

/-- The fields of the word of given fields. -/
@[simp] theorem partsOf_word (p : Parts) : partsOf p.word = p := by
  have h := p.word_toNat
  obtain ⟨f7, rs2, rs1, f3, rd, op⟩ := p
  have h1 := f7.isLt; have h2 := rs2.isLt; have h3 := rs1.isLt
  have h4 := f3.isLt; have h5 := rd.isLt; have h6 := op.isLt
  simp only [partsOf, Parts.mk.injEq]
  refine ⟨?_, ?_, ?_, ?_, ?_, ?_⟩ <;>
    (apply BitVec.eq_of_toNat_eq; rw [BitVec.extractLsb'_toNat, h, Nat.shiftRight_eq_div_pow]; dsimp only; omega)

/-- The word of the fields of a word. -/
@[simp] theorem word_partsOf (w : InstrWord) : (partsOf w).word = w := by
  apply BitVec.eq_of_toNat_eq
  have hw := w.isLt
  simp only [Parts.word_toNat, partsOf, BitVec.extractLsb'_toNat, Nat.shiftRight_eq_div_pow]
  omega

theorem CParts.parcel_toNat (p : CParts) : p.parcel.toNat =
    (((p.f3.toNat * 2 ^ 1 + p.b12.toNat) * 2 ^ 5 + p.r1.toNat) * 2 ^ 5 + p.r2.toNat) * 2 ^ 2 + p.op.toNat := by
  simp only [CParts.parcel, toNat_append']

/-- The fields of the parcel of given fields. -/
@[simp] theorem cpartsOf_parcel (p : CParts) : cpartsOf p.parcel = p := by
  have h := p.parcel_toNat
  obtain ⟨f3, b12, r1, r2, op⟩ := p
  have h1 := f3.isLt; have h2 := b12.isLt; have h3 := r1.isLt
  have h4 := r2.isLt; have h5 := op.isLt
  simp only [cpartsOf, CParts.mk.injEq]
  refine ⟨?_, ?_, ?_, ?_, ?_⟩ <;>
    (apply BitVec.eq_of_toNat_eq; rw [BitVec.extractLsb'_toNat, h, Nat.shiftRight_eq_div_pow]; dsimp only; omega)

/-- The parcel of the fields of a parcel. -/
@[simp] theorem parcel_cpartsOf (p : Parcel) : (cpartsOf p).parcel = p := by
  apply BitVec.eq_of_toNat_eq
  have hp := p.isLt
  simp only [CParts.parcel_toNat, cpartsOf, BitVec.extractLsb'_toNat, Nat.shiftRight_eq_div_pow]
  omega

/-- The low half of a word that holds a parcel. -/
@[simp] theorem CParts.word_low (p : CParts) : p.word.setWidth 16 = p.parcel := by
  apply BitVec.eq_of_toNat_eq
  have := p.parcel.isLt
  simp only [CParts.word, BitVec.toNat_setWidth]
  omega

theorem CParts.word_toNat (p : CParts) : p.word.toNat = p.parcel.toNat := by
  have := p.parcel.isLt
  simp only [CParts.word, BitVec.toNat_setWidth]
  omega

/-! ### Length by the low bits (30_encoding.md R192) -/

theorem isCompressed_toNat (w : InstrWord) : isCompressed w = !decide (w.toNat % 4 = 3) := by
  have : (w.extractLsb' 0 2 = 3#2) ↔ w.toNat % 4 = 3 := by
    rw [← BitVec.toNat_inj, BitVec.extractLsb'_toNat]
    simp
  unfold isCompressed
  by_cases h : w.toNat % 4 = 3
  · rw [this.mpr h]; simp [h]
  · simp only [h, decide_false, Bool.not_false, bne_iff_ne, ne_eq]
    exact fun e => h (this.mp e)

theorem isLong_toNat (w : InstrWord) : isLong w = decide (w.toNat % 32 = 31) := by
  have : (w.extractLsb' 0 5 = 31#5) ↔ w.toNat % 32 = 31 := by
    rw [← BitVec.toNat_inj, BitVec.extractLsb'_toNat]
    simp
  unfold isLong
  by_cases h : w.toNat % 32 = 31
  · rw [this.mpr h]; simp [h]
  · simp only [h, decide_false, beq_eq_false_iff_ne, ne_eq]
    exact fun e => h (this.mp e)

@[simp] theorem Parts.isCompressed_word (p : Parts) : isCompressed p.word = !decide (p.op.toNat % 4 = 3) := by
  have h : p.word.toNat % 4 = p.op.toNat % 4 := by rw [p.word_toNat]; omega
  rw [isCompressed_toNat, h]

@[simp] theorem Parts.isLong_word (p : Parts) : isLong p.word = decide (p.op.toNat % 32 = 31) := by
  have h : p.word.toNat % 32 = p.op.toNat % 32 := by rw [p.word_toNat]; omega
  rw [isLong_toNat, h]

@[simp] theorem CParts.isCompressed_word (p : CParts) : isCompressed p.word = !decide (p.op.toNat = 3) := by
  have := p.op.isLt
  have h : p.word.toNat % 4 = p.op.toNat := by rw [p.word_toNat, p.parcel_toNat]; omega
  rw [isCompressed_toNat, h]

/-- A 32-bit word decodes by its fields. -/
theorem decode_word (c : Cfg) (p : Parts) (h : p.op.toNat % 4 = 3) (hl : p.op.toNat % 32 ≠ 31) :
    decode c p.word = admitted c (decode32 c p) := by
  simp [decode, h, hl]

/-- A parcel decodes by its fields. -/
theorem decode_parcel (c : Cfg) (p : CParts) (h : p.op.toNat ≠ 3) (hz : p.parcel ≠ 0#16) :
    decode c p.word = admitted c (decode16 c p) := by
  simp [decode, h, hz]

/-- A matched row that is well-formed is admitted. -/
theorem admitted_wf {c : Cfg} {i : Instr} (h : i.wf c = true) : admitted c (some i) = .instr i := by
  simp only [Instr.wf, Bool.and_eq_true] at h
  simp [admitted, rowDefined, operandsAllowed, h.1, h.2]

/-- What is admitted is the row and is well-formed. -/
theorem admitted_eq_instr {c : Cfg} {r : Option Instr} {i : Instr} (h : admitted c r = .instr i) :
    r = some i ∧ i.wf c = true := by
  unfold admitted at h
  cases r with
  | none => cases h
  | some j =>
    simp only [rowDefined, operandsAllowed] at h
    by_cases h1 : j.available c = true
    · by_cases h2 : j.operandsOk c = true
      · simp only [h1, h2, if_true, Decoded.instr.injEq] at h
        subst h
        exact ⟨rfl, by simp [Instr.wf, h1, h2]⟩
      · simp [h1, h2] at h
    · simp [h1] at h

/-- The low and high parts of an appended pair. -/
@[simp] theorem extractLsb'_append_low {n m : Nat} (x : BitVec n) (y : BitVec m) : (x ++ y).extractLsb' 0 m = y := by
  apply BitVec.eq_of_toNat_eq
  rw [BitVec.extractLsb'_toNat, toNat_append', Nat.shiftRight_zero, Nat.mul_comm, Nat.mul_add_mod,
    Nat.mod_eq_of_lt y.isLt]

theorem extractLsb'_append_high {n m : Nat} (x : BitVec n) (y : BitVec m) : (x ++ y).extractLsb' m n = x := by
  apply BitVec.eq_of_toNat_eq
  have h : (x.toNat * 2 ^ m + y.toNat) / 2 ^ m = x.toNat := by
    rw [Nat.mul_comm, Nat.mul_add_div (Nat.two_pow_pos m), Nat.div_eq_of_lt y.isLt, Nat.add_zero]
  rw [BitVec.extractLsb'_toNat, toNat_append', Nat.shiftRight_eq_div_pow, h, Nat.mod_eq_of_lt x.isLt]

/-! ### The plain fields of each format -/

@[simp] theorem encR_f7 (op : BitVec 7) (f3 : BitVec 3) (f7 : BitVec 7) (rd rs1 rs2 : RegNum) : (encR op f3 f7 rd rs1 rs2).f7 = f7 := rfl
@[simp] theorem encR_rs2 (op : BitVec 7) (f3 : BitVec 3) (f7 : BitVec 7) (rd rs1 rs2 : RegNum) : (encR op f3 f7 rd rs1 rs2).rs2 = rs2 := rfl
@[simp] theorem encR_rs1 (op : BitVec 7) (f3 : BitVec 3) (f7 : BitVec 7) (rd rs1 rs2 : RegNum) : (encR op f3 f7 rd rs1 rs2).rs1 = rs1 := rfl
@[simp] theorem encR_f3 (op : BitVec 7) (f3 : BitVec 3) (f7 : BitVec 7) (rd rs1 rs2 : RegNum) : (encR op f3 f7 rd rs1 rs2).f3 = f3 := rfl
@[simp] theorem encR_rd (op : BitVec 7) (f3 : BitVec 3) (f7 : BitVec 7) (rd rs1 rs2 : RegNum) : (encR op f3 f7 rd rs1 rs2).rd = rd := rfl
@[simp] theorem encR_op (op : BitVec 7) (f3 : BitVec 3) (f7 : BitVec 7) (rd rs1 rs2 : RegNum) : (encR op f3 f7 rd rs1 rs2).op = op := rfl
@[simp] theorem encI_rs1 (op : BitVec 7) (f3 : BitVec 3) (rd rs1 : RegNum) (imm : BitVec 12) : (encI op f3 rd rs1 imm).rs1 = rs1 := rfl
@[simp] theorem encI_f3 (op : BitVec 7) (f3 : BitVec 3) (rd rs1 : RegNum) (imm : BitVec 12) : (encI op f3 rd rs1 imm).f3 = f3 := rfl
@[simp] theorem encI_rd (op : BitVec 7) (f3 : BitVec 3) (rd rs1 : RegNum) (imm : BitVec 12) : (encI op f3 rd rs1 imm).rd = rd := rfl
@[simp] theorem encI_op (op : BitVec 7) (f3 : BitVec 3) (rd rs1 : RegNum) (imm : BitVec 12) : (encI op f3 rd rs1 imm).op = op := rfl
@[simp] theorem encS_rs2 (op : BitVec 7) (f3 : BitVec 3) (rs2 rs1 : RegNum) (imm : BitVec 12) : (encS op f3 rs2 rs1 imm).rs2 = rs2 := rfl
@[simp] theorem encS_rs1 (op : BitVec 7) (f3 : BitVec 3) (rs2 rs1 : RegNum) (imm : BitVec 12) : (encS op f3 rs2 rs1 imm).rs1 = rs1 := rfl
@[simp] theorem encS_f3 (op : BitVec 7) (f3 : BitVec 3) (rs2 rs1 : RegNum) (imm : BitVec 12) : (encS op f3 rs2 rs1 imm).f3 = f3 := rfl
@[simp] theorem encS_op (op : BitVec 7) (f3 : BitVec 3) (rs2 rs1 : RegNum) (imm : BitVec 12) : (encS op f3 rs2 rs1 imm).op = op := rfl
@[simp] theorem encB_rs2 (op : BitVec 7) (f3 : BitVec 3) (rs1 rs2 : RegNum) (imm : BitVec 12) : (encB op f3 rs1 rs2 imm).rs2 = rs2 := rfl
@[simp] theorem encB_rs1 (op : BitVec 7) (f3 : BitVec 3) (rs1 rs2 : RegNum) (imm : BitVec 12) : (encB op f3 rs1 rs2 imm).rs1 = rs1 := rfl
@[simp] theorem encB_f3 (op : BitVec 7) (f3 : BitVec 3) (rs1 rs2 : RegNum) (imm : BitVec 12) : (encB op f3 rs1 rs2 imm).f3 = f3 := rfl
@[simp] theorem encB_op (op : BitVec 7) (f3 : BitVec 3) (rs1 rs2 : RegNum) (imm : BitVec 12) : (encB op f3 rs1 rs2 imm).op = op := rfl
@[simp] theorem encU_rd (op : BitVec 7) (rd : RegNum) (imm : BitVec 20) : (encU op rd imm).rd = rd := rfl
@[simp] theorem encU_op (op : BitVec 7) (rd : RegNum) (imm : BitVec 20) : (encU op rd imm).op = op := rfl
@[simp] theorem encJ_rd (op : BitVec 7) (rd : RegNum) (imm : BitVec 20) : (encJ op rd imm).rd = rd := rfl
@[simp] theorem encJ_op (op : BitVec 7) (rd : RegNum) (imm : BitVec 20) : (encJ op rd imm).op = op := rfl
@[simp] theorem encCr_f3 (op : BitVec 2) (f3 : BitVec 3) (b12 : BitVec 1) (r1 r2 : RegNum) : (encCr op f3 b12 r1 r2).f3 = f3 := rfl
@[simp] theorem encCr_b12 (op : BitVec 2) (f3 : BitVec 3) (b12 : BitVec 1) (r1 r2 : RegNum) : (encCr op f3 b12 r1 r2).b12 = b12 := rfl
@[simp] theorem encCr_r1 (op : BitVec 2) (f3 : BitVec 3) (b12 : BitVec 1) (r1 r2 : RegNum) : (encCr op f3 b12 r1 r2).r1 = r1 := rfl
@[simp] theorem encCr_r2 (op : BitVec 2) (f3 : BitVec 3) (b12 : BitVec 1) (r1 r2 : RegNum) : (encCr op f3 b12 r1 r2).r2 = r2 := rfl
@[simp] theorem encCr_op (op : BitVec 2) (f3 : BitVec 3) (b12 : BitVec 1) (r1 r2 : RegNum) : (encCr op f3 b12 r1 r2).op = op := rfl
@[simp] theorem encCi_f3 (op : BitVec 2) (f3 : BitVec 3) (r1 : RegNum) (imm : BitVec 6) : (encCi op f3 r1 imm).f3 = f3 := rfl
@[simp] theorem encCi_r1 (op : BitVec 2) (f3 : BitVec 3) (r1 : RegNum) (imm : BitVec 6) : (encCi op f3 r1 imm).r1 = r1 := rfl
@[simp] theorem encCi_op (op : BitVec 2) (f3 : BitVec 3) (r1 : RegNum) (imm : BitVec 6) : (encCi op f3 r1 imm).op = op := rfl
@[simp] theorem encC16sp_f3 (op : BitVec 2) (f3 : BitVec 3) (imm : BitVec 6) : (encC16sp op f3 imm).f3 = f3 := rfl
@[simp] theorem encC16sp_r1 (op : BitVec 2) (f3 : BitVec 3) (imm : BitVec 6) : (encC16sp op f3 imm).r1 = 2 := rfl
@[simp] theorem encC16sp_op (op : BitVec 2) (f3 : BitVec 3) (imm : BitVec 6) : (encC16sp op f3 imm).op = op := rfl
@[simp] theorem encClwsp_f3 (op : BitVec 2) (f3 : BitVec 3) (rd : RegNum) (imm : BitVec 6) : (encClwsp op f3 rd imm).f3 = f3 := rfl
@[simp] theorem encClwsp_r1 (op : BitVec 2) (f3 : BitVec 3) (rd : RegNum) (imm : BitVec 6) : (encClwsp op f3 rd imm).r1 = rd := rfl
@[simp] theorem encClwsp_op (op : BitVec 2) (f3 : BitVec 3) (rd : RegNum) (imm : BitVec 6) : (encClwsp op f3 rd imm).op = op := rfl
@[simp] theorem encCldsp_f3 (op : BitVec 2) (f3 : BitVec 3) (rd : RegNum) (imm : BitVec 6) : (encCldsp op f3 rd imm).f3 = f3 := rfl
@[simp] theorem encCldsp_r1 (op : BitVec 2) (f3 : BitVec 3) (rd : RegNum) (imm : BitVec 6) : (encCldsp op f3 rd imm).r1 = rd := rfl
@[simp] theorem encCldsp_op (op : BitVec 2) (f3 : BitVec 3) (rd : RegNum) (imm : BitVec 6) : (encCldsp op f3 rd imm).op = op := rfl
@[simp] theorem encCswsp_f3 (op : BitVec 2) (f3 : BitVec 3) (rs2 : RegNum) (imm : BitVec 6) : (encCswsp op f3 rs2 imm).f3 = f3 := rfl
@[simp] theorem encCswsp_r2 (op : BitVec 2) (f3 : BitVec 3) (rs2 : RegNum) (imm : BitVec 6) : (encCswsp op f3 rs2 imm).r2 = rs2 := rfl
@[simp] theorem encCswsp_op (op : BitVec 2) (f3 : BitVec 3) (rs2 : RegNum) (imm : BitVec 6) : (encCswsp op f3 rs2 imm).op = op := rfl
@[simp] theorem encCsdsp_f3 (op : BitVec 2) (f3 : BitVec 3) (rs2 : RegNum) (imm : BitVec 6) : (encCsdsp op f3 rs2 imm).f3 = f3 := rfl
@[simp] theorem encCsdsp_r2 (op : BitVec 2) (f3 : BitVec 3) (rs2 : RegNum) (imm : BitVec 6) : (encCsdsp op f3 rs2 imm).r2 = rs2 := rfl
@[simp] theorem encCsdsp_op (op : BitVec 2) (f3 : BitVec 3) (rs2 : RegNum) (imm : BitVec 6) : (encCsdsp op f3 rs2 imm).op = op := rfl
@[simp] theorem encCiw_f3 (op : BitVec 2) (f3 : BitVec 3) (rd : CRegNum) (imm : BitVec 8) : (encCiw op f3 rd imm).f3 = f3 := rfl
@[simp] theorem encCiw_op (op : BitVec 2) (f3 : BitVec 3) (rd : CRegNum) (imm : BitVec 8) : (encCiw op f3 rd imm).op = op := rfl
@[simp] theorem encClw_f3 (op : BitVec 2) (f3 : BitVec 3) (data base : CRegNum) (imm : BitVec 5) : (encClw op f3 data base imm).f3 = f3 := rfl
@[simp] theorem encClw_op (op : BitVec 2) (f3 : BitVec 3) (data base : CRegNum) (imm : BitVec 5) : (encClw op f3 data base imm).op = op := rfl
@[simp] theorem encCld_f3 (op : BitVec 2) (f3 : BitVec 3) (data base : CRegNum) (imm : BitVec 5) : (encCld op f3 data base imm).f3 = f3 := rfl
@[simp] theorem encCld_op (op : BitVec 2) (f3 : BitVec 3) (data base : CRegNum) (imm : BitVec 5) : (encCld op f3 data base imm).op = op := rfl
@[simp] theorem encCa_f3 (op : BitVec 2) (f3 : BitVec 3) (b12 : BitVec 1) (f2 : BitVec 2) (rd rs2 : CRegNum) : (encCa op f3 b12 f2 rd rs2).f3 = f3 := rfl
@[simp] theorem encCa_b12 (op : BitVec 2) (f3 : BitVec 3) (b12 : BitVec 1) (f2 : BitVec 2) (rd rs2 : CRegNum) : (encCa op f3 b12 f2 rd rs2).b12 = b12 := rfl
@[simp] theorem encCa_r1 (op : BitVec 2) (f3 : BitVec 3) (b12 : BitVec 1) (f2 : BitVec 2) (rd rs2 : CRegNum) : (encCa op f3 b12 f2 rd rs2).r1 = 3#2 ++ rd := rfl
@[simp] theorem encCa_r2 (op : BitVec 2) (f3 : BitVec 3) (b12 : BitVec 1) (f2 : BitVec 2) (rd rs2 : CRegNum) : (encCa op f3 b12 f2 rd rs2).r2 = f2 ++ rs2 := rfl
@[simp] theorem encCa_op (op : BitVec 2) (f3 : BitVec 3) (b12 : BitVec 1) (f2 : BitVec 2) (rd rs2 : CRegNum) : (encCa op f3 b12 f2 rd rs2).op = op := rfl
@[simp] theorem encCb_f3 (op : BitVec 2) (f3 : BitVec 3) (rs1 : CRegNum) (off : BitVec 8) : (encCb op f3 rs1 off).f3 = f3 := rfl
@[simp] theorem encCb_op (op : BitVec 2) (f3 : BitVec 3) (rs1 : CRegNum) (off : BitVec 8) : (encCb op f3 rs1 off).op = op := rfl
@[simp] theorem encCj_f3 (op : BitVec 2) (f3 : BitVec 3) (off : BitVec 11) : (encCj op f3 off).f3 = f3 := rfl
@[simp] theorem encCj_op (op : BitVec 2) (f3 : BitVec 3) (off : BitVec 11) : (encCj op f3 off).op = op := rfl

/-! ### Immediates through the fields (30_encoding.md R203 to R208; 48_c.md R808 to R845) -/

@[simp] theorem encI_imm (op : BitVec 7) (f3 : BitVec 3) (rd rs1 : RegNum) (imm : BitVec 12) : (encI op f3 rd rs1 imm).immIBits = imm := by
  apply BitVec.eq_of_toNat_eq
  have := imm.isLt
  simp only [encI, Parts.immIBits, toNat_append', BitVec.extractLsb'_toNat, Nat.shiftRight_eq_div_pow]
  omega

@[simp] theorem encS_imm (op : BitVec 7) (f3 : BitVec 3) (rs2 rs1 : RegNum) (imm : BitVec 12) : (encS op f3 rs2 rs1 imm).immSBits = imm := by
  apply BitVec.eq_of_toNat_eq
  have := imm.isLt
  simp only [encS, Parts.immSBits, toNat_append', BitVec.extractLsb'_toNat, Nat.shiftRight_eq_div_pow]
  omega

@[simp] theorem encB_imm (op : BitVec 7) (f3 : BitVec 3) (rs1 rs2 : RegNum) (imm : BitVec 12) : (encB op f3 rs1 rs2 imm).immBBits = imm := by
  simp only [encB, Parts.immBBits, extractLsb'_append_high, extractLsb'_append_low]
  apply BitVec.eq_of_toNat_eq
  have := imm.isLt
  simp only [toNat_append', BitVec.extractLsb'_toNat, Nat.shiftRight_eq_div_pow]
  omega

@[simp] theorem encU_imm (op : BitVec 7) (rd : RegNum) (imm : BitVec 20) : (encU op rd imm).immUBits = imm := by
  apply BitVec.eq_of_toNat_eq
  have := imm.isLt
  simp only [encU, Parts.immUBits, toNat_append', BitVec.extractLsb'_toNat, Nat.shiftRight_eq_div_pow]
  omega

@[simp] theorem encJ_imm (op : BitVec 7) (rd : RegNum) (imm : BitVec 20) : (encJ op rd imm).immJBits = imm := by
  simp only [encJ, Parts.immJBits, extractLsb'_append_high, extractLsb'_append_low]
  apply BitVec.eq_of_toNat_eq
  have := imm.isLt
  simp only [toNat_append', BitVec.extractLsb'_toNat, Nat.shiftRight_eq_div_pow]
  omega

@[simp] theorem encCi_imm (op : BitVec 2) (f3 : BitVec 3) (r1 : RegNum) (imm : BitVec 6) : (encCi op f3 r1 imm).imm6 = imm := by
  apply BitVec.eq_of_toNat_eq
  have := imm.isLt
  simp only [encCi, CParts.imm6, toNat_append', BitVec.extractLsb'_toNat, Nat.shiftRight_eq_div_pow]
  omega

@[simp] theorem encC16sp_imm (op : BitVec 2) (f3 : BitVec 3) (imm : BitVec 6) : (encC16sp op f3 imm).imm16sp = imm := by
  simp only [encC16sp, CParts.imm16sp]
  revert imm
  decide +kernel

@[simp] theorem encClwsp_imm (op : BitVec 2) (f3 : BitVec 3) (rd : RegNum) (imm : BitVec 6) : (encClwsp op f3 rd imm).immLwsp = imm := by
  simp only [encClwsp, CParts.immLwsp]
  revert imm
  decide +kernel

@[simp] theorem encCldsp_imm (op : BitVec 2) (f3 : BitVec 3) (rd : RegNum) (imm : BitVec 6) : (encCldsp op f3 rd imm).immLdsp = imm := by
  simp only [encCldsp, CParts.immLdsp]
  revert imm
  decide +kernel

@[simp] theorem encCswsp_imm (op : BitVec 2) (f3 : BitVec 3) (rs2 : RegNum) (imm : BitVec 6) : (encCswsp op f3 rs2 imm).immSwsp = imm := by
  simp only [encCswsp, CParts.immSwsp]
  revert imm
  decide +kernel

@[simp] theorem encCsdsp_imm (op : BitVec 2) (f3 : BitVec 3) (rs2 : RegNum) (imm : BitVec 6) : (encCsdsp op f3 rs2 imm).immSdsp = imm := by
  simp only [encCsdsp, CParts.immSdsp]
  revert imm
  decide +kernel

@[simp] theorem encCiw_imm (op : BitVec 2) (f3 : BitVec 3) (rd : CRegNum) (imm : BitVec 8) : (encCiw op f3 rd imm).immCiw = imm := by
  simp only [encCiw, CParts.immCiw]
  revert imm rd
  decide +kernel

@[simp] theorem encClw_imm (op : BitVec 2) (f3 : BitVec 3) (d b : CRegNum) (imm : BitVec 5) : (encClw op f3 d b imm).immClw = imm := by
  simp only [encClw, CParts.immClw, CParts.hi3, CParts.f2hi, extractLsb'_append_high]
  revert imm d
  decide +kernel

@[simp] theorem encCld_imm (op : BitVec 2) (f3 : BitVec 3) (d b : CRegNum) (imm : BitVec 5) : (encCld op f3 d b imm).immCld = imm := by
  simp only [encCld, CParts.immCld, CParts.hi3, CParts.f2hi, CParts.f2lo, extractLsb'_append_high]
  revert imm
  decide +kernel

@[simp] theorem encCb_imm (op : BitVec 2) (f3 : BitVec 3) (rs1 : CRegNum) (imm : BitVec 8) : (encCb op f3 rs1 imm).immCb = imm := by
  simp only [encCb, CParts.immCb]
  revert imm rs1
  decide +kernel

@[simp] theorem encCj_imm (op : BitVec 2) (f3 : BitVec 3) (imm : BitVec 11) : (encCj op f3 imm).immCj = imm := by
  simp only [encCj, CParts.immCj]
  revert imm
  decide +kernel

/-! ### Fields made of parts: shift amounts, `aq` and `rl`, FENCE -/

@[simp] theorem encI_shift_code (op : BitVec 7) (f3 : BitVec 3) (rd rs1 : RegNum) (k shamt : BitVec 6) :
    (encI op f3 rd rs1 (k ++ shamt)).f7.extractLsb' 1 6 = k := by
  apply BitVec.eq_of_toNat_eq
  have h1 := k.isLt; have h2 := shamt.isLt
  simp only [encI, BitVec.extractLsb'_toNat, toNat_append', Nat.shiftRight_eq_div_pow]
  omega

@[simp] theorem encI_shamt6 (op : BitVec 7) (f3 : BitVec 3) (rd rs1 : RegNum) (k shamt : BitVec 6) :
    (encI op f3 rd rs1 (k ++ shamt)).shamt6 = shamt := by
  apply BitVec.eq_of_toNat_eq
  have h1 := k.isLt; have h2 := shamt.isLt
  simp only [encI, Parts.shamt6, BitVec.extractLsb'_toNat, toNat_append', Nat.shiftRight_eq_div_pow]
  omega

@[simp] theorem amo_code (k : BitVec 5) (aq rl : BitVec 1) : (k ++ aq ++ rl).extractLsb' 2 5 = k := by
  apply BitVec.eq_of_toNat_eq
  have h1 := k.isLt; have h2 := aq.isLt; have h3 := rl.isLt
  simp only [BitVec.extractLsb'_toNat, toNat_append', Nat.shiftRight_eq_div_pow]
  omega

@[simp] theorem amo_aq (k : BitVec 5) (aq rl : BitVec 1) : (k ++ aq ++ rl).extractLsb' 1 1 = aq := by
  apply BitVec.eq_of_toNat_eq
  have h1 := k.isLt; have h2 := aq.isLt; have h3 := rl.isLt
  simp only [BitVec.extractLsb'_toNat, toNat_append', Nat.shiftRight_eq_div_pow]
  omega

@[simp] theorem amo_rl (k : BitVec 5) (aq rl : BitVec 1) : (k ++ aq ++ rl).extractLsb' 0 1 = rl :=
  extractLsb'_append_low _ _

@[simp] theorem fma_fmt (rs3 : BitVec 5) (k : BitVec 2) : (rs3 ++ k).extractLsb' 0 2 = k :=
  extractLsb'_append_low _ _

@[simp] theorem fma_rs3 (rs3 : BitVec 5) (k : BitVec 2) : (rs3 ++ k).extractLsb' 2 5 = rs3 :=
  extractLsb'_append_high _ _

@[simp] theorem encI_fence (op : BitVec 7) (f3 : BitVec 3) (rd rs1 : RegNum) (fm pred succ : BitVec 4) :
    (encI op f3 rd rs1 (fm ++ pred ++ succ)).fenceFm = fm ∧
    (encI op f3 rd rs1 (fm ++ pred ++ succ)).fencePred = pred ∧
    (encI op f3 rd rs1 (fm ++ pred ++ succ)).fenceSucc = succ := by
  have h1 := fm.isLt; have h2 := pred.isLt; have h3 := succ.isLt
  refine ⟨?_, ?_, ?_⟩ <;>
    (apply BitVec.eq_of_toNat_eq
     simp only [encI, Parts.fenceFm, Parts.fencePred, Parts.fenceSucc, BitVec.extractLsb'_toNat, toNat_append',
       Nat.shiftRight_eq_div_pow]
     omega)

/-! ### Register fields of the compressed formats -/

@[simp] theorem creg_low (k : BitVec 2) (r : CRegNum) : (k ++ r).extractLsb' 0 3 = r := extractLsb'_append_low _ _

@[simp] theorem creg_high (k : BitVec 2) (r : CRegNum) : (k ++ r).extractLsb' 3 2 = k := extractLsb'_append_high _ _

@[simp] theorem encCiw_q2 (op : BitVec 2) (f3 : BitVec 3) (rd : CRegNum) (imm : BitVec 8) :
    (encCiw op f3 rd imm).q2 = rd := extractLsb'_append_low _ _

@[simp] theorem encClw_q1 (op : BitVec 2) (f3 : BitVec 3) (d b : CRegNum) (imm : BitVec 5) :
    (encClw op f3 d b imm).q1 = b := extractLsb'_append_low _ _

@[simp] theorem encClw_q2 (op : BitVec 2) (f3 : BitVec 3) (d b : CRegNum) (imm : BitVec 5) :
    (encClw op f3 d b imm).q2 = d := extractLsb'_append_low _ _

@[simp] theorem encCld_q1 (op : BitVec 2) (f3 : BitVec 3) (d b : CRegNum) (imm : BitVec 5) :
    (encCld op f3 d b imm).q1 = b := extractLsb'_append_low _ _

@[simp] theorem encCld_q2 (op : BitVec 2) (f3 : BitVec 3) (d b : CRegNum) (imm : BitVec 5) :
    (encCld op f3 d b imm).q2 = d := extractLsb'_append_low _ _

@[simp] theorem encCb_q1 (op : BitVec 2) (f3 : BitVec 3) (rs1 : CRegNum) (off : BitVec 8) :
    (encCb op f3 rs1 off).q1 = rs1 := extractLsb'_append_low _ _

@[simp] theorem encCi_q1 (op : BitVec 2) (f3 : BitVec 3) (k : BitVec 2) (r : CRegNum) (imm : BitVec 6) :
    (encCi op f3 (k ++ r) imm).q1 = r := extractLsb'_append_low _ _

@[simp] theorem encCi_f2hi (op : BitVec 2) (f3 : BitVec 3) (k : BitVec 2) (r : CRegNum) (imm : BitVec 6) :
    (encCi op f3 (k ++ r) imm).f2hi = k := extractLsb'_append_high _ _

@[simp] theorem encCa_fields (op : BitVec 2) (f3 : BitVec 3) (b12 : BitVec 1) (f2 : BitVec 2) (rd rs2 : CRegNum) :
    (encCa op f3 b12 f2 rd rs2).q1 = rd ∧ (encCa op f3 b12 f2 rd rs2).q2 = rs2 ∧
    (encCa op f3 b12 f2 rd rs2).f2hi = 3#2 ∧ (encCa op f3 b12 f2 rd rs2).f2lo = f2 :=
  ⟨extractLsb'_append_low _ _, extractLsb'_append_low _ _, extractLsb'_append_high _ _, extractLsb'_append_high _ _⟩

/-- A parcel with a set bit in its quadrant or its function code is not all zeros. -/
theorem parcel_ne_zero (p : CParts) (h : p.f3 ≠ 0#3 ∨ p.op ≠ 0#2) : p.parcel ≠ 0#16 := by
  intro e
  have e' := p.parcel_toNat
  rw [e] at e'
  rcases h with h | h
  · exact h (BitVec.eq_of_toNat_eq (by simp at e' ⊢; omega))
  · exact h (BitVec.eq_of_toNat_eq (by simp at e' ⊢; omega))

end Sys2Proof
end

