-- ==== Sys2Proof/Laws/PerInstr.lean ====
section
/-! SUPPORT. Families of statements about each instruction as syntax, one lemma per constructor. -/

namespace Sys2Proof

/-- What an instruction's encoding says of its length: it is never in the space of longer instructions, and one
whose low bits make it 16 bits long takes only the low half of the word (30_encoding.md R191, R192). -/
def Laws.Length.Statement (i : Instr) : Prop :=
  isLong (encode i) = false ∧ (isCompressed (encode i) = true → (encode i).toNat < 2 ^ 16)

theorem length_word (p : Parts) (h : p.op.toNat % 4 = 3) (hl : p.op.toNat % 32 ≠ 31) :
    isLong p.word = false ∧ (isCompressed p.word = true → p.word.toNat < 2 ^ 16) :=
  ⟨by simp [hl], by simp [h]⟩

theorem length_parcel (p : CParts) (h : p.op.toNat ≠ 3) :
    isLong p.word = false ∧ (isCompressed p.word = true → p.word.toNat < 2 ^ 16) := by
  have h1 := p.word_toNat
  have h2 := p.parcel_toNat
  have h3 := p.parcel.isLt
  have h4 := p.op.isLt
  refine ⟨?_, fun _ => by omega⟩
  rw [isLong_toNat, decide_eq_false_iff_not]
  omega

theorem length_const (w : InstrWord) (h : w.toNat % 32 ≠ 31) (hc : w.toNat % 4 = 3 ∨ w.toNat < 2 ^ 16) :
    isLong w = false ∧ (isCompressed w = true → w.toNat < 2 ^ 16) := by
  refine ⟨by rw [isLong_toNat]; simpa using h, fun hw => ?_⟩
  rw [isCompressed_toNat] at hw
  simp at hw
  omega

namespace Laws

theorem Length.lui (rd : RegNum) (imm : BitVec 20) : Length.Statement (.lui rd imm) := length_word _ (by simp) (by simp)
theorem Length.auipc (rd : RegNum) (imm : BitVec 20) : Length.Statement (.auipc rd imm) := length_word _ (by simp) (by simp)
theorem Length.jal (rd : RegNum) (imm : BitVec 20) : Length.Statement (.jal rd imm) := length_word _ (by simp) (by simp)
theorem Length.jalr (rd : RegNum) (rs1 : RegNum) (imm : BitVec 12) : Length.Statement (.jalr rd rs1 imm) := length_word _ (by simp) (by simp)
theorem Length.beq (rs1 : RegNum) (rs2 : RegNum) (imm : BitVec 12) : Length.Statement (.beq rs1 rs2 imm) := length_word _ (by simp) (by simp)
theorem Length.bne (rs1 : RegNum) (rs2 : RegNum) (imm : BitVec 12) : Length.Statement (.bne rs1 rs2 imm) := length_word _ (by simp) (by simp)
theorem Length.blt (rs1 : RegNum) (rs2 : RegNum) (imm : BitVec 12) : Length.Statement (.blt rs1 rs2 imm) := length_word _ (by simp) (by simp)
theorem Length.bge (rs1 : RegNum) (rs2 : RegNum) (imm : BitVec 12) : Length.Statement (.bge rs1 rs2 imm) := length_word _ (by simp) (by simp)
theorem Length.bltu (rs1 : RegNum) (rs2 : RegNum) (imm : BitVec 12) : Length.Statement (.bltu rs1 rs2 imm) := length_word _ (by simp) (by simp)
theorem Length.bgeu (rs1 : RegNum) (rs2 : RegNum) (imm : BitVec 12) : Length.Statement (.bgeu rs1 rs2 imm) := length_word _ (by simp) (by simp)
theorem Length.lb (rd : RegNum) (rs1 : RegNum) (imm : BitVec 12) : Length.Statement (.lb rd rs1 imm) := length_word _ (by simp) (by simp)
theorem Length.lh (rd : RegNum) (rs1 : RegNum) (imm : BitVec 12) : Length.Statement (.lh rd rs1 imm) := length_word _ (by simp) (by simp)
theorem Length.lw (rd : RegNum) (rs1 : RegNum) (imm : BitVec 12) : Length.Statement (.lw rd rs1 imm) := length_word _ (by simp) (by simp)
theorem Length.lbu (rd : RegNum) (rs1 : RegNum) (imm : BitVec 12) : Length.Statement (.lbu rd rs1 imm) := length_word _ (by simp) (by simp)
theorem Length.lhu (rd : RegNum) (rs1 : RegNum) (imm : BitVec 12) : Length.Statement (.lhu rd rs1 imm) := length_word _ (by simp) (by simp)
theorem Length.sb (rs2 : RegNum) (rs1 : RegNum) (imm : BitVec 12) : Length.Statement (.sb rs2 rs1 imm) := length_word _ (by simp) (by simp)
theorem Length.sh (rs2 : RegNum) (rs1 : RegNum) (imm : BitVec 12) : Length.Statement (.sh rs2 rs1 imm) := length_word _ (by simp) (by simp)
theorem Length.sw (rs2 : RegNum) (rs1 : RegNum) (imm : BitVec 12) : Length.Statement (.sw rs2 rs1 imm) := length_word _ (by simp) (by simp)
theorem Length.addi (rd : RegNum) (rs1 : RegNum) (imm : BitVec 12) : Length.Statement (.addi rd rs1 imm) := length_word _ (by simp) (by simp)
theorem Length.slti (rd : RegNum) (rs1 : RegNum) (imm : BitVec 12) : Length.Statement (.slti rd rs1 imm) := length_word _ (by simp) (by simp)
theorem Length.sltiu (rd : RegNum) (rs1 : RegNum) (imm : BitVec 12) : Length.Statement (.sltiu rd rs1 imm) := length_word _ (by simp) (by simp)
theorem Length.xori (rd : RegNum) (rs1 : RegNum) (imm : BitVec 12) : Length.Statement (.xori rd rs1 imm) := length_word _ (by simp) (by simp)
theorem Length.ori (rd : RegNum) (rs1 : RegNum) (imm : BitVec 12) : Length.Statement (.ori rd rs1 imm) := length_word _ (by simp) (by simp)
theorem Length.andi (rd : RegNum) (rs1 : RegNum) (imm : BitVec 12) : Length.Statement (.andi rd rs1 imm) := length_word _ (by simp) (by simp)
theorem Length.slli (rd : RegNum) (rs1 : RegNum) (shamt : BitVec 6) : Length.Statement (.slli rd rs1 shamt) := length_word _ (by simp) (by simp)
theorem Length.srli (rd : RegNum) (rs1 : RegNum) (shamt : BitVec 6) : Length.Statement (.srli rd rs1 shamt) := length_word _ (by simp) (by simp)
theorem Length.srai (rd : RegNum) (rs1 : RegNum) (shamt : BitVec 6) : Length.Statement (.srai rd rs1 shamt) := length_word _ (by simp) (by simp)
theorem Length.add (rd : RegNum) (rs1 : RegNum) (rs2 : RegNum) : Length.Statement (.add rd rs1 rs2) := length_word _ (by simp) (by simp)
theorem Length.sub (rd : RegNum) (rs1 : RegNum) (rs2 : RegNum) : Length.Statement (.sub rd rs1 rs2) := length_word _ (by simp) (by simp)
theorem Length.sll (rd : RegNum) (rs1 : RegNum) (rs2 : RegNum) : Length.Statement (.sll rd rs1 rs2) := length_word _ (by simp) (by simp)
theorem Length.slt (rd : RegNum) (rs1 : RegNum) (rs2 : RegNum) : Length.Statement (.slt rd rs1 rs2) := length_word _ (by simp) (by simp)
theorem Length.sltu (rd : RegNum) (rs1 : RegNum) (rs2 : RegNum) : Length.Statement (.sltu rd rs1 rs2) := length_word _ (by simp) (by simp)
theorem Length.xor (rd : RegNum) (rs1 : RegNum) (rs2 : RegNum) : Length.Statement (.xor rd rs1 rs2) := length_word _ (by simp) (by simp)
theorem Length.srl (rd : RegNum) (rs1 : RegNum) (rs2 : RegNum) : Length.Statement (.srl rd rs1 rs2) := length_word _ (by simp) (by simp)
theorem Length.sra (rd : RegNum) (rs1 : RegNum) (rs2 : RegNum) : Length.Statement (.sra rd rs1 rs2) := length_word _ (by simp) (by simp)
theorem Length.or (rd : RegNum) (rs1 : RegNum) (rs2 : RegNum) : Length.Statement (.or rd rs1 rs2) := length_word _ (by simp) (by simp)
theorem Length.and (rd : RegNum) (rs1 : RegNum) (rs2 : RegNum) : Length.Statement (.and rd rs1 rs2) := length_word _ (by simp) (by simp)
theorem Length.fence (fm : BitVec 4) (pred : BitVec 4) (succ : BitVec 4) (rs1 : RegNum) (rd : RegNum) : Length.Statement (.fence fm pred succ rs1 rd) := length_word _ (by simp) (by simp)
theorem Length.fenceTso : Length.Statement (.fenceTso) := length_const _ (by decide) (by decide)
theorem Length.pause : Length.Statement (.pause) := length_const _ (by decide) (by decide)
theorem Length.ecall : Length.Statement (.ecall) := length_const _ (by decide) (by decide)
theorem Length.ebreak : Length.Statement (.ebreak) := length_const _ (by decide) (by decide)
theorem Length.ntlP1 : Length.Statement (.ntlP1) := length_const _ (by decide) (by decide)
theorem Length.ntlPall : Length.Statement (.ntlPall) := length_const _ (by decide) (by decide)
theorem Length.ntlS1 : Length.Statement (.ntlS1) := length_const _ (by decide) (by decide)
theorem Length.ntlAll : Length.Statement (.ntlAll) := length_const _ (by decide) (by decide)
theorem Length.lwu (rd : RegNum) (rs1 : RegNum) (imm : BitVec 12) : Length.Statement (.lwu rd rs1 imm) := length_word _ (by simp) (by simp)
theorem Length.ld (rd : RegNum) (rs1 : RegNum) (imm : BitVec 12) : Length.Statement (.ld rd rs1 imm) := length_word _ (by simp) (by simp)
theorem Length.sd (rs2 : RegNum) (rs1 : RegNum) (imm : BitVec 12) : Length.Statement (.sd rs2 rs1 imm) := length_word _ (by simp) (by simp)
theorem Length.addiw (rd : RegNum) (rs1 : RegNum) (imm : BitVec 12) : Length.Statement (.addiw rd rs1 imm) := length_word _ (by simp) (by simp)
theorem Length.slliw (rd : RegNum) (rs1 : RegNum) (shamt : BitVec 5) : Length.Statement (.slliw rd rs1 shamt) := length_word _ (by simp) (by simp)
theorem Length.srliw (rd : RegNum) (rs1 : RegNum) (shamt : BitVec 5) : Length.Statement (.srliw rd rs1 shamt) := length_word _ (by simp) (by simp)
theorem Length.sraiw (rd : RegNum) (rs1 : RegNum) (shamt : BitVec 5) : Length.Statement (.sraiw rd rs1 shamt) := length_word _ (by simp) (by simp)
theorem Length.addw (rd : RegNum) (rs1 : RegNum) (rs2 : RegNum) : Length.Statement (.addw rd rs1 rs2) := length_word _ (by simp) (by simp)
theorem Length.subw (rd : RegNum) (rs1 : RegNum) (rs2 : RegNum) : Length.Statement (.subw rd rs1 rs2) := length_word _ (by simp) (by simp)
theorem Length.sllw (rd : RegNum) (rs1 : RegNum) (rs2 : RegNum) : Length.Statement (.sllw rd rs1 rs2) := length_word _ (by simp) (by simp)
theorem Length.srlw (rd : RegNum) (rs1 : RegNum) (rs2 : RegNum) : Length.Statement (.srlw rd rs1 rs2) := length_word _ (by simp) (by simp)
theorem Length.sraw (rd : RegNum) (rs1 : RegNum) (rs2 : RegNum) : Length.Statement (.sraw rd rs1 rs2) := length_word _ (by simp) (by simp)
theorem Length.fenceI (imm : BitVec 12) (rs1 : RegNum) (rd : RegNum) : Length.Statement (.fenceI imm rs1 rd) := length_word _ (by simp) (by simp)
theorem Length.csrrw (rd : RegNum) (csr : BitVec 12) (rs1 : RegNum) : Length.Statement (.csrrw rd csr rs1) := length_word _ (by simp) (by simp)
theorem Length.csrrs (rd : RegNum) (csr : BitVec 12) (rs1 : RegNum) : Length.Statement (.csrrs rd csr rs1) := length_word _ (by simp) (by simp)
theorem Length.csrrc (rd : RegNum) (csr : BitVec 12) (rs1 : RegNum) : Length.Statement (.csrrc rd csr rs1) := length_word _ (by simp) (by simp)
theorem Length.csrrwi (rd : RegNum) (csr : BitVec 12) (uimm : BitVec 5) : Length.Statement (.csrrwi rd csr uimm) := length_word _ (by simp) (by simp)
theorem Length.csrrsi (rd : RegNum) (csr : BitVec 12) (uimm : BitVec 5) : Length.Statement (.csrrsi rd csr uimm) := length_word _ (by simp) (by simp)
theorem Length.csrrci (rd : RegNum) (csr : BitVec 12) (uimm : BitVec 5) : Length.Statement (.csrrci rd csr uimm) := length_word _ (by simp) (by simp)
theorem Length.mul (rd : RegNum) (rs1 : RegNum) (rs2 : RegNum) : Length.Statement (.mul rd rs1 rs2) := length_word _ (by simp) (by simp)
theorem Length.mulh (rd : RegNum) (rs1 : RegNum) (rs2 : RegNum) : Length.Statement (.mulh rd rs1 rs2) := length_word _ (by simp) (by simp)
theorem Length.mulhsu (rd : RegNum) (rs1 : RegNum) (rs2 : RegNum) : Length.Statement (.mulhsu rd rs1 rs2) := length_word _ (by simp) (by simp)
theorem Length.mulhu (rd : RegNum) (rs1 : RegNum) (rs2 : RegNum) : Length.Statement (.mulhu rd rs1 rs2) := length_word _ (by simp) (by simp)
theorem Length.div (rd : RegNum) (rs1 : RegNum) (rs2 : RegNum) : Length.Statement (.div rd rs1 rs2) := length_word _ (by simp) (by simp)
theorem Length.divu (rd : RegNum) (rs1 : RegNum) (rs2 : RegNum) : Length.Statement (.divu rd rs1 rs2) := length_word _ (by simp) (by simp)
theorem Length.rem (rd : RegNum) (rs1 : RegNum) (rs2 : RegNum) : Length.Statement (.rem rd rs1 rs2) := length_word _ (by simp) (by simp)
theorem Length.remu (rd : RegNum) (rs1 : RegNum) (rs2 : RegNum) : Length.Statement (.remu rd rs1 rs2) := length_word _ (by simp) (by simp)
theorem Length.mulw (rd : RegNum) (rs1 : RegNum) (rs2 : RegNum) : Length.Statement (.mulw rd rs1 rs2) := length_word _ (by simp) (by simp)
theorem Length.divw (rd : RegNum) (rs1 : RegNum) (rs2 : RegNum) : Length.Statement (.divw rd rs1 rs2) := length_word _ (by simp) (by simp)
theorem Length.divuw (rd : RegNum) (rs1 : RegNum) (rs2 : RegNum) : Length.Statement (.divuw rd rs1 rs2) := length_word _ (by simp) (by simp)
theorem Length.remw (rd : RegNum) (rs1 : RegNum) (rs2 : RegNum) : Length.Statement (.remw rd rs1 rs2) := length_word _ (by simp) (by simp)
theorem Length.remuw (rd : RegNum) (rs1 : RegNum) (rs2 : RegNum) : Length.Statement (.remuw rd rs1 rs2) := length_word _ (by simp) (by simp)
theorem Length.lrW (rd : RegNum) (rs1 : RegNum) (aq : BitVec 1) (rl : BitVec 1) : Length.Statement (.lrW rd rs1 aq rl) := length_word _ (by simp) (by simp)
theorem Length.scW (rd : RegNum) (rs1 : RegNum) (rs2 : RegNum) (aq : BitVec 1) (rl : BitVec 1) : Length.Statement (.scW rd rs1 rs2 aq rl) := length_word _ (by simp) (by simp)
theorem Length.amoswapW (rd : RegNum) (rs1 : RegNum) (rs2 : RegNum) (aq : BitVec 1) (rl : BitVec 1) : Length.Statement (.amoswapW rd rs1 rs2 aq rl) := length_word _ (by simp) (by simp)
theorem Length.amoaddW (rd : RegNum) (rs1 : RegNum) (rs2 : RegNum) (aq : BitVec 1) (rl : BitVec 1) : Length.Statement (.amoaddW rd rs1 rs2 aq rl) := length_word _ (by simp) (by simp)
theorem Length.amoxorW (rd : RegNum) (rs1 : RegNum) (rs2 : RegNum) (aq : BitVec 1) (rl : BitVec 1) : Length.Statement (.amoxorW rd rs1 rs2 aq rl) := length_word _ (by simp) (by simp)
theorem Length.amoandW (rd : RegNum) (rs1 : RegNum) (rs2 : RegNum) (aq : BitVec 1) (rl : BitVec 1) : Length.Statement (.amoandW rd rs1 rs2 aq rl) := length_word _ (by simp) (by simp)
theorem Length.amoorW (rd : RegNum) (rs1 : RegNum) (rs2 : RegNum) (aq : BitVec 1) (rl : BitVec 1) : Length.Statement (.amoorW rd rs1 rs2 aq rl) := length_word _ (by simp) (by simp)
theorem Length.amominW (rd : RegNum) (rs1 : RegNum) (rs2 : RegNum) (aq : BitVec 1) (rl : BitVec 1) : Length.Statement (.amominW rd rs1 rs2 aq rl) := length_word _ (by simp) (by simp)
theorem Length.amomaxW (rd : RegNum) (rs1 : RegNum) (rs2 : RegNum) (aq : BitVec 1) (rl : BitVec 1) : Length.Statement (.amomaxW rd rs1 rs2 aq rl) := length_word _ (by simp) (by simp)
theorem Length.amominuW (rd : RegNum) (rs1 : RegNum) (rs2 : RegNum) (aq : BitVec 1) (rl : BitVec 1) : Length.Statement (.amominuW rd rs1 rs2 aq rl) := length_word _ (by simp) (by simp)
theorem Length.amomaxuW (rd : RegNum) (rs1 : RegNum) (rs2 : RegNum) (aq : BitVec 1) (rl : BitVec 1) : Length.Statement (.amomaxuW rd rs1 rs2 aq rl) := length_word _ (by simp) (by simp)
theorem Length.lrD (rd : RegNum) (rs1 : RegNum) (aq : BitVec 1) (rl : BitVec 1) : Length.Statement (.lrD rd rs1 aq rl) := length_word _ (by simp) (by simp)
theorem Length.scD (rd : RegNum) (rs1 : RegNum) (rs2 : RegNum) (aq : BitVec 1) (rl : BitVec 1) : Length.Statement (.scD rd rs1 rs2 aq rl) := length_word _ (by simp) (by simp)
theorem Length.amoswapD (rd : RegNum) (rs1 : RegNum) (rs2 : RegNum) (aq : BitVec 1) (rl : BitVec 1) : Length.Statement (.amoswapD rd rs1 rs2 aq rl) := length_word _ (by simp) (by simp)
theorem Length.amoaddD (rd : RegNum) (rs1 : RegNum) (rs2 : RegNum) (aq : BitVec 1) (rl : BitVec 1) : Length.Statement (.amoaddD rd rs1 rs2 aq rl) := length_word _ (by simp) (by simp)
theorem Length.amoxorD (rd : RegNum) (rs1 : RegNum) (rs2 : RegNum) (aq : BitVec 1) (rl : BitVec 1) : Length.Statement (.amoxorD rd rs1 rs2 aq rl) := length_word _ (by simp) (by simp)
theorem Length.amoandD (rd : RegNum) (rs1 : RegNum) (rs2 : RegNum) (aq : BitVec 1) (rl : BitVec 1) : Length.Statement (.amoandD rd rs1 rs2 aq rl) := length_word _ (by simp) (by simp)
theorem Length.amoorD (rd : RegNum) (rs1 : RegNum) (rs2 : RegNum) (aq : BitVec 1) (rl : BitVec 1) : Length.Statement (.amoorD rd rs1 rs2 aq rl) := length_word _ (by simp) (by simp)
theorem Length.amominD (rd : RegNum) (rs1 : RegNum) (rs2 : RegNum) (aq : BitVec 1) (rl : BitVec 1) : Length.Statement (.amominD rd rs1 rs2 aq rl) := length_word _ (by simp) (by simp)
theorem Length.amomaxD (rd : RegNum) (rs1 : RegNum) (rs2 : RegNum) (aq : BitVec 1) (rl : BitVec 1) : Length.Statement (.amomaxD rd rs1 rs2 aq rl) := length_word _ (by simp) (by simp)
theorem Length.amominuD (rd : RegNum) (rs1 : RegNum) (rs2 : RegNum) (aq : BitVec 1) (rl : BitVec 1) : Length.Statement (.amominuD rd rs1 rs2 aq rl) := length_word _ (by simp) (by simp)
theorem Length.amomaxuD (rd : RegNum) (rs1 : RegNum) (rs2 : RegNum) (aq : BitVec 1) (rl : BitVec 1) : Length.Statement (.amomaxuD rd rs1 rs2 aq rl) := length_word _ (by simp) (by simp)
theorem Length.flw (rd : RegNum) (rs1 : RegNum) (imm : BitVec 12) : Length.Statement (.flw rd rs1 imm) := length_word _ (by simp) (by simp)
theorem Length.fsw (rs2 : RegNum) (rs1 : RegNum) (imm : BitVec 12) : Length.Statement (.fsw rs2 rs1 imm) := length_word _ (by simp) (by simp)
theorem Length.fmaddS (rd : RegNum) (rs1 : RegNum) (rs2 : RegNum) (rs3 : RegNum) (rm : BitVec 3) : Length.Statement (.fmaddS rd rs1 rs2 rs3 rm) := length_word _ (by simp) (by simp)
theorem Length.fmsubS (rd : RegNum) (rs1 : RegNum) (rs2 : RegNum) (rs3 : RegNum) (rm : BitVec 3) : Length.Statement (.fmsubS rd rs1 rs2 rs3 rm) := length_word _ (by simp) (by simp)
theorem Length.fnmsubS (rd : RegNum) (rs1 : RegNum) (rs2 : RegNum) (rs3 : RegNum) (rm : BitVec 3) : Length.Statement (.fnmsubS rd rs1 rs2 rs3 rm) := length_word _ (by simp) (by simp)
theorem Length.fnmaddS (rd : RegNum) (rs1 : RegNum) (rs2 : RegNum) (rs3 : RegNum) (rm : BitVec 3) : Length.Statement (.fnmaddS rd rs1 rs2 rs3 rm) := length_word _ (by simp) (by simp)
theorem Length.faddS (rd : RegNum) (rs1 : RegNum) (rs2 : RegNum) (rm : BitVec 3) : Length.Statement (.faddS rd rs1 rs2 rm) := length_word _ (by simp) (by simp)
theorem Length.fsubS (rd : RegNum) (rs1 : RegNum) (rs2 : RegNum) (rm : BitVec 3) : Length.Statement (.fsubS rd rs1 rs2 rm) := length_word _ (by simp) (by simp)
theorem Length.fmulS (rd : RegNum) (rs1 : RegNum) (rs2 : RegNum) (rm : BitVec 3) : Length.Statement (.fmulS rd rs1 rs2 rm) := length_word _ (by simp) (by simp)
theorem Length.fdivS (rd : RegNum) (rs1 : RegNum) (rs2 : RegNum) (rm : BitVec 3) : Length.Statement (.fdivS rd rs1 rs2 rm) := length_word _ (by simp) (by simp)
theorem Length.fsqrtS (rd : RegNum) (rs1 : RegNum) (rm : BitVec 3) : Length.Statement (.fsqrtS rd rs1 rm) := length_word _ (by simp) (by simp)
theorem Length.fsgnjS (rd : RegNum) (rs1 : RegNum) (rs2 : RegNum) : Length.Statement (.fsgnjS rd rs1 rs2) := length_word _ (by simp) (by simp)
theorem Length.fsgnjnS (rd : RegNum) (rs1 : RegNum) (rs2 : RegNum) : Length.Statement (.fsgnjnS rd rs1 rs2) := length_word _ (by simp) (by simp)
theorem Length.fsgnjxS (rd : RegNum) (rs1 : RegNum) (rs2 : RegNum) : Length.Statement (.fsgnjxS rd rs1 rs2) := length_word _ (by simp) (by simp)
theorem Length.fminS (rd : RegNum) (rs1 : RegNum) (rs2 : RegNum) : Length.Statement (.fminS rd rs1 rs2) := length_word _ (by simp) (by simp)
theorem Length.fmaxS (rd : RegNum) (rs1 : RegNum) (rs2 : RegNum) : Length.Statement (.fmaxS rd rs1 rs2) := length_word _ (by simp) (by simp)
theorem Length.fcvtWS (rd : RegNum) (rs1 : RegNum) (rm : BitVec 3) : Length.Statement (.fcvtWS rd rs1 rm) := length_word _ (by simp) (by simp)
theorem Length.fcvtWuS (rd : RegNum) (rs1 : RegNum) (rm : BitVec 3) : Length.Statement (.fcvtWuS rd rs1 rm) := length_word _ (by simp) (by simp)
theorem Length.fcvtLS (rd : RegNum) (rs1 : RegNum) (rm : BitVec 3) : Length.Statement (.fcvtLS rd rs1 rm) := length_word _ (by simp) (by simp)
theorem Length.fcvtLuS (rd : RegNum) (rs1 : RegNum) (rm : BitVec 3) : Length.Statement (.fcvtLuS rd rs1 rm) := length_word _ (by simp) (by simp)
theorem Length.fcvtSW (rd : RegNum) (rs1 : RegNum) (rm : BitVec 3) : Length.Statement (.fcvtSW rd rs1 rm) := length_word _ (by simp) (by simp)
theorem Length.fcvtSWu (rd : RegNum) (rs1 : RegNum) (rm : BitVec 3) : Length.Statement (.fcvtSWu rd rs1 rm) := length_word _ (by simp) (by simp)
theorem Length.fcvtSL (rd : RegNum) (rs1 : RegNum) (rm : BitVec 3) : Length.Statement (.fcvtSL rd rs1 rm) := length_word _ (by simp) (by simp)
theorem Length.fcvtSLu (rd : RegNum) (rs1 : RegNum) (rm : BitVec 3) : Length.Statement (.fcvtSLu rd rs1 rm) := length_word _ (by simp) (by simp)
theorem Length.feqS (rd : RegNum) (rs1 : RegNum) (rs2 : RegNum) : Length.Statement (.feqS rd rs1 rs2) := length_word _ (by simp) (by simp)
theorem Length.fltS (rd : RegNum) (rs1 : RegNum) (rs2 : RegNum) : Length.Statement (.fltS rd rs1 rs2) := length_word _ (by simp) (by simp)
theorem Length.fleS (rd : RegNum) (rs1 : RegNum) (rs2 : RegNum) : Length.Statement (.fleS rd rs1 rs2) := length_word _ (by simp) (by simp)
theorem Length.fclassS (rd : RegNum) (rs1 : RegNum) : Length.Statement (.fclassS rd rs1) := length_word _ (by simp) (by simp)
theorem Length.fmvXW (rd : RegNum) (rs1 : RegNum) : Length.Statement (.fmvXW rd rs1) := length_word _ (by simp) (by simp)
theorem Length.fmvWX (rd : RegNum) (rs1 : RegNum) : Length.Statement (.fmvWX rd rs1) := length_word _ (by simp) (by simp)
theorem Length.fld (rd : RegNum) (rs1 : RegNum) (imm : BitVec 12) : Length.Statement (.fld rd rs1 imm) := length_word _ (by simp) (by simp)
theorem Length.fsd (rs2 : RegNum) (rs1 : RegNum) (imm : BitVec 12) : Length.Statement (.fsd rs2 rs1 imm) := length_word _ (by simp) (by simp)
theorem Length.fmaddD (rd : RegNum) (rs1 : RegNum) (rs2 : RegNum) (rs3 : RegNum) (rm : BitVec 3) : Length.Statement (.fmaddD rd rs1 rs2 rs3 rm) := length_word _ (by simp) (by simp)
theorem Length.fmsubD (rd : RegNum) (rs1 : RegNum) (rs2 : RegNum) (rs3 : RegNum) (rm : BitVec 3) : Length.Statement (.fmsubD rd rs1 rs2 rs3 rm) := length_word _ (by simp) (by simp)
theorem Length.fnmsubD (rd : RegNum) (rs1 : RegNum) (rs2 : RegNum) (rs3 : RegNum) (rm : BitVec 3) : Length.Statement (.fnmsubD rd rs1 rs2 rs3 rm) := length_word _ (by simp) (by simp)
theorem Length.fnmaddD (rd : RegNum) (rs1 : RegNum) (rs2 : RegNum) (rs3 : RegNum) (rm : BitVec 3) : Length.Statement (.fnmaddD rd rs1 rs2 rs3 rm) := length_word _ (by simp) (by simp)
theorem Length.faddD (rd : RegNum) (rs1 : RegNum) (rs2 : RegNum) (rm : BitVec 3) : Length.Statement (.faddD rd rs1 rs2 rm) := length_word _ (by simp) (by simp)
theorem Length.fsubD (rd : RegNum) (rs1 : RegNum) (rs2 : RegNum) (rm : BitVec 3) : Length.Statement (.fsubD rd rs1 rs2 rm) := length_word _ (by simp) (by simp)
theorem Length.fmulD (rd : RegNum) (rs1 : RegNum) (rs2 : RegNum) (rm : BitVec 3) : Length.Statement (.fmulD rd rs1 rs2 rm) := length_word _ (by simp) (by simp)
theorem Length.fdivD (rd : RegNum) (rs1 : RegNum) (rs2 : RegNum) (rm : BitVec 3) : Length.Statement (.fdivD rd rs1 rs2 rm) := length_word _ (by simp) (by simp)
theorem Length.fsqrtD (rd : RegNum) (rs1 : RegNum) (rm : BitVec 3) : Length.Statement (.fsqrtD rd rs1 rm) := length_word _ (by simp) (by simp)
theorem Length.fsgnjD (rd : RegNum) (rs1 : RegNum) (rs2 : RegNum) : Length.Statement (.fsgnjD rd rs1 rs2) := length_word _ (by simp) (by simp)
theorem Length.fsgnjnD (rd : RegNum) (rs1 : RegNum) (rs2 : RegNum) : Length.Statement (.fsgnjnD rd rs1 rs2) := length_word _ (by simp) (by simp)
theorem Length.fsgnjxD (rd : RegNum) (rs1 : RegNum) (rs2 : RegNum) : Length.Statement (.fsgnjxD rd rs1 rs2) := length_word _ (by simp) (by simp)
theorem Length.fminD (rd : RegNum) (rs1 : RegNum) (rs2 : RegNum) : Length.Statement (.fminD rd rs1 rs2) := length_word _ (by simp) (by simp)
theorem Length.fmaxD (rd : RegNum) (rs1 : RegNum) (rs2 : RegNum) : Length.Statement (.fmaxD rd rs1 rs2) := length_word _ (by simp) (by simp)
theorem Length.fcvtWD (rd : RegNum) (rs1 : RegNum) (rm : BitVec 3) : Length.Statement (.fcvtWD rd rs1 rm) := length_word _ (by simp) (by simp)
theorem Length.fcvtWuD (rd : RegNum) (rs1 : RegNum) (rm : BitVec 3) : Length.Statement (.fcvtWuD rd rs1 rm) := length_word _ (by simp) (by simp)
theorem Length.fcvtLD (rd : RegNum) (rs1 : RegNum) (rm : BitVec 3) : Length.Statement (.fcvtLD rd rs1 rm) := length_word _ (by simp) (by simp)
theorem Length.fcvtLuD (rd : RegNum) (rs1 : RegNum) (rm : BitVec 3) : Length.Statement (.fcvtLuD rd rs1 rm) := length_word _ (by simp) (by simp)
theorem Length.fcvtDW (rd : RegNum) (rs1 : RegNum) (rm : BitVec 3) : Length.Statement (.fcvtDW rd rs1 rm) := length_word _ (by simp) (by simp)
theorem Length.fcvtDWu (rd : RegNum) (rs1 : RegNum) (rm : BitVec 3) : Length.Statement (.fcvtDWu rd rs1 rm) := length_word _ (by simp) (by simp)
theorem Length.fcvtDL (rd : RegNum) (rs1 : RegNum) (rm : BitVec 3) : Length.Statement (.fcvtDL rd rs1 rm) := length_word _ (by simp) (by simp)
theorem Length.fcvtDLu (rd : RegNum) (rs1 : RegNum) (rm : BitVec 3) : Length.Statement (.fcvtDLu rd rs1 rm) := length_word _ (by simp) (by simp)
theorem Length.feqD (rd : RegNum) (rs1 : RegNum) (rs2 : RegNum) : Length.Statement (.feqD rd rs1 rs2) := length_word _ (by simp) (by simp)
theorem Length.fltD (rd : RegNum) (rs1 : RegNum) (rs2 : RegNum) : Length.Statement (.fltD rd rs1 rs2) := length_word _ (by simp) (by simp)
theorem Length.fleD (rd : RegNum) (rs1 : RegNum) (rs2 : RegNum) : Length.Statement (.fleD rd rs1 rs2) := length_word _ (by simp) (by simp)
theorem Length.fclassD (rd : RegNum) (rs1 : RegNum) : Length.Statement (.fclassD rd rs1) := length_word _ (by simp) (by simp)
theorem Length.fcvtSD (rd : RegNum) (rs1 : RegNum) (rm : BitVec 3) : Length.Statement (.fcvtSD rd rs1 rm) := length_word _ (by simp) (by simp)
theorem Length.fcvtDS (rd : RegNum) (rs1 : RegNum) (rm : BitVec 3) : Length.Statement (.fcvtDS rd rs1 rm) := length_word _ (by simp) (by simp)
theorem Length.fmvXD (rd : RegNum) (rs1 : RegNum) : Length.Statement (.fmvXD rd rs1) := length_word _ (by simp) (by simp)
theorem Length.fmvDX (rd : RegNum) (rs1 : RegNum) : Length.Statement (.fmvDX rd rs1) := length_word _ (by simp) (by simp)
theorem Length.flq (rd : RegNum) (rs1 : RegNum) (imm : BitVec 12) : Length.Statement (.flq rd rs1 imm) := length_word _ (by simp) (by simp)
theorem Length.fsq (rs2 : RegNum) (rs1 : RegNum) (imm : BitVec 12) : Length.Statement (.fsq rs2 rs1 imm) := length_word _ (by simp) (by simp)
theorem Length.fmaddQ (rd : RegNum) (rs1 : RegNum) (rs2 : RegNum) (rs3 : RegNum) (rm : BitVec 3) : Length.Statement (.fmaddQ rd rs1 rs2 rs3 rm) := length_word _ (by simp) (by simp)
theorem Length.fmsubQ (rd : RegNum) (rs1 : RegNum) (rs2 : RegNum) (rs3 : RegNum) (rm : BitVec 3) : Length.Statement (.fmsubQ rd rs1 rs2 rs3 rm) := length_word _ (by simp) (by simp)
theorem Length.fnmsubQ (rd : RegNum) (rs1 : RegNum) (rs2 : RegNum) (rs3 : RegNum) (rm : BitVec 3) : Length.Statement (.fnmsubQ rd rs1 rs2 rs3 rm) := length_word _ (by simp) (by simp)
theorem Length.fnmaddQ (rd : RegNum) (rs1 : RegNum) (rs2 : RegNum) (rs3 : RegNum) (rm : BitVec 3) : Length.Statement (.fnmaddQ rd rs1 rs2 rs3 rm) := length_word _ (by simp) (by simp)
theorem Length.faddQ (rd : RegNum) (rs1 : RegNum) (rs2 : RegNum) (rm : BitVec 3) : Length.Statement (.faddQ rd rs1 rs2 rm) := length_word _ (by simp) (by simp)
theorem Length.fsubQ (rd : RegNum) (rs1 : RegNum) (rs2 : RegNum) (rm : BitVec 3) : Length.Statement (.fsubQ rd rs1 rs2 rm) := length_word _ (by simp) (by simp)
theorem Length.fmulQ (rd : RegNum) (rs1 : RegNum) (rs2 : RegNum) (rm : BitVec 3) : Length.Statement (.fmulQ rd rs1 rs2 rm) := length_word _ (by simp) (by simp)
theorem Length.fdivQ (rd : RegNum) (rs1 : RegNum) (rs2 : RegNum) (rm : BitVec 3) : Length.Statement (.fdivQ rd rs1 rs2 rm) := length_word _ (by simp) (by simp)
theorem Length.fsqrtQ (rd : RegNum) (rs1 : RegNum) (rm : BitVec 3) : Length.Statement (.fsqrtQ rd rs1 rm) := length_word _ (by simp) (by simp)
theorem Length.fsgnjQ (rd : RegNum) (rs1 : RegNum) (rs2 : RegNum) : Length.Statement (.fsgnjQ rd rs1 rs2) := length_word _ (by simp) (by simp)
theorem Length.fsgnjnQ (rd : RegNum) (rs1 : RegNum) (rs2 : RegNum) : Length.Statement (.fsgnjnQ rd rs1 rs2) := length_word _ (by simp) (by simp)
theorem Length.fsgnjxQ (rd : RegNum) (rs1 : RegNum) (rs2 : RegNum) : Length.Statement (.fsgnjxQ rd rs1 rs2) := length_word _ (by simp) (by simp)
theorem Length.fminQ (rd : RegNum) (rs1 : RegNum) (rs2 : RegNum) : Length.Statement (.fminQ rd rs1 rs2) := length_word _ (by simp) (by simp)
theorem Length.fmaxQ (rd : RegNum) (rs1 : RegNum) (rs2 : RegNum) : Length.Statement (.fmaxQ rd rs1 rs2) := length_word _ (by simp) (by simp)
theorem Length.fcvtWQ (rd : RegNum) (rs1 : RegNum) (rm : BitVec 3) : Length.Statement (.fcvtWQ rd rs1 rm) := length_word _ (by simp) (by simp)
theorem Length.fcvtWuQ (rd : RegNum) (rs1 : RegNum) (rm : BitVec 3) : Length.Statement (.fcvtWuQ rd rs1 rm) := length_word _ (by simp) (by simp)
theorem Length.fcvtLQ (rd : RegNum) (rs1 : RegNum) (rm : BitVec 3) : Length.Statement (.fcvtLQ rd rs1 rm) := length_word _ (by simp) (by simp)
theorem Length.fcvtLuQ (rd : RegNum) (rs1 : RegNum) (rm : BitVec 3) : Length.Statement (.fcvtLuQ rd rs1 rm) := length_word _ (by simp) (by simp)
theorem Length.fcvtQW (rd : RegNum) (rs1 : RegNum) (rm : BitVec 3) : Length.Statement (.fcvtQW rd rs1 rm) := length_word _ (by simp) (by simp)
theorem Length.fcvtQWu (rd : RegNum) (rs1 : RegNum) (rm : BitVec 3) : Length.Statement (.fcvtQWu rd rs1 rm) := length_word _ (by simp) (by simp)
theorem Length.fcvtQL (rd : RegNum) (rs1 : RegNum) (rm : BitVec 3) : Length.Statement (.fcvtQL rd rs1 rm) := length_word _ (by simp) (by simp)
theorem Length.fcvtQLu (rd : RegNum) (rs1 : RegNum) (rm : BitVec 3) : Length.Statement (.fcvtQLu rd rs1 rm) := length_word _ (by simp) (by simp)
theorem Length.feqQ (rd : RegNum) (rs1 : RegNum) (rs2 : RegNum) : Length.Statement (.feqQ rd rs1 rs2) := length_word _ (by simp) (by simp)
theorem Length.fltQ (rd : RegNum) (rs1 : RegNum) (rs2 : RegNum) : Length.Statement (.fltQ rd rs1 rs2) := length_word _ (by simp) (by simp)
theorem Length.fleQ (rd : RegNum) (rs1 : RegNum) (rs2 : RegNum) : Length.Statement (.fleQ rd rs1 rs2) := length_word _ (by simp) (by simp)
theorem Length.fclassQ (rd : RegNum) (rs1 : RegNum) : Length.Statement (.fclassQ rd rs1) := length_word _ (by simp) (by simp)
theorem Length.fcvtSQ (rd : RegNum) (rs1 : RegNum) (rm : BitVec 3) : Length.Statement (.fcvtSQ rd rs1 rm) := length_word _ (by simp) (by simp)
theorem Length.fcvtQS (rd : RegNum) (rs1 : RegNum) (rm : BitVec 3) : Length.Statement (.fcvtQS rd rs1 rm) := length_word _ (by simp) (by simp)
theorem Length.fcvtDQ (rd : RegNum) (rs1 : RegNum) (rm : BitVec 3) : Length.Statement (.fcvtDQ rd rs1 rm) := length_word _ (by simp) (by simp)
theorem Length.fcvtQD (rd : RegNum) (rs1 : RegNum) (rm : BitVec 3) : Length.Statement (.fcvtQD rd rs1 rm) := length_word _ (by simp) (by simp)
theorem Length.flh (rd : RegNum) (rs1 : RegNum) (imm : BitVec 12) : Length.Statement (.flh rd rs1 imm) := length_word _ (by simp) (by simp)
theorem Length.fsh (rs2 : RegNum) (rs1 : RegNum) (imm : BitVec 12) : Length.Statement (.fsh rs2 rs1 imm) := length_word _ (by simp) (by simp)
theorem Length.fmaddH (rd : RegNum) (rs1 : RegNum) (rs2 : RegNum) (rs3 : RegNum) (rm : BitVec 3) : Length.Statement (.fmaddH rd rs1 rs2 rs3 rm) := length_word _ (by simp) (by simp)
theorem Length.fmsubH (rd : RegNum) (rs1 : RegNum) (rs2 : RegNum) (rs3 : RegNum) (rm : BitVec 3) : Length.Statement (.fmsubH rd rs1 rs2 rs3 rm) := length_word _ (by simp) (by simp)
theorem Length.fnmsubH (rd : RegNum) (rs1 : RegNum) (rs2 : RegNum) (rs3 : RegNum) (rm : BitVec 3) : Length.Statement (.fnmsubH rd rs1 rs2 rs3 rm) := length_word _ (by simp) (by simp)
theorem Length.fnmaddH (rd : RegNum) (rs1 : RegNum) (rs2 : RegNum) (rs3 : RegNum) (rm : BitVec 3) : Length.Statement (.fnmaddH rd rs1 rs2 rs3 rm) := length_word _ (by simp) (by simp)
theorem Length.faddH (rd : RegNum) (rs1 : RegNum) (rs2 : RegNum) (rm : BitVec 3) : Length.Statement (.faddH rd rs1 rs2 rm) := length_word _ (by simp) (by simp)
theorem Length.fsubH (rd : RegNum) (rs1 : RegNum) (rs2 : RegNum) (rm : BitVec 3) : Length.Statement (.fsubH rd rs1 rs2 rm) := length_word _ (by simp) (by simp)
theorem Length.fmulH (rd : RegNum) (rs1 : RegNum) (rs2 : RegNum) (rm : BitVec 3) : Length.Statement (.fmulH rd rs1 rs2 rm) := length_word _ (by simp) (by simp)
theorem Length.fdivH (rd : RegNum) (rs1 : RegNum) (rs2 : RegNum) (rm : BitVec 3) : Length.Statement (.fdivH rd rs1 rs2 rm) := length_word _ (by simp) (by simp)
theorem Length.fsqrtH (rd : RegNum) (rs1 : RegNum) (rm : BitVec 3) : Length.Statement (.fsqrtH rd rs1 rm) := length_word _ (by simp) (by simp)
theorem Length.fsgnjH (rd : RegNum) (rs1 : RegNum) (rs2 : RegNum) : Length.Statement (.fsgnjH rd rs1 rs2) := length_word _ (by simp) (by simp)
theorem Length.fsgnjnH (rd : RegNum) (rs1 : RegNum) (rs2 : RegNum) : Length.Statement (.fsgnjnH rd rs1 rs2) := length_word _ (by simp) (by simp)
theorem Length.fsgnjxH (rd : RegNum) (rs1 : RegNum) (rs2 : RegNum) : Length.Statement (.fsgnjxH rd rs1 rs2) := length_word _ (by simp) (by simp)
theorem Length.fminH (rd : RegNum) (rs1 : RegNum) (rs2 : RegNum) : Length.Statement (.fminH rd rs1 rs2) := length_word _ (by simp) (by simp)
theorem Length.fmaxH (rd : RegNum) (rs1 : RegNum) (rs2 : RegNum) : Length.Statement (.fmaxH rd rs1 rs2) := length_word _ (by simp) (by simp)
theorem Length.fcvtWH (rd : RegNum) (rs1 : RegNum) (rm : BitVec 3) : Length.Statement (.fcvtWH rd rs1 rm) := length_word _ (by simp) (by simp)
theorem Length.fcvtWuH (rd : RegNum) (rs1 : RegNum) (rm : BitVec 3) : Length.Statement (.fcvtWuH rd rs1 rm) := length_word _ (by simp) (by simp)
theorem Length.fcvtLH (rd : RegNum) (rs1 : RegNum) (rm : BitVec 3) : Length.Statement (.fcvtLH rd rs1 rm) := length_word _ (by simp) (by simp)
theorem Length.fcvtLuH (rd : RegNum) (rs1 : RegNum) (rm : BitVec 3) : Length.Statement (.fcvtLuH rd rs1 rm) := length_word _ (by simp) (by simp)
theorem Length.fcvtHW (rd : RegNum) (rs1 : RegNum) (rm : BitVec 3) : Length.Statement (.fcvtHW rd rs1 rm) := length_word _ (by simp) (by simp)
theorem Length.fcvtHWu (rd : RegNum) (rs1 : RegNum) (rm : BitVec 3) : Length.Statement (.fcvtHWu rd rs1 rm) := length_word _ (by simp) (by simp)
theorem Length.fcvtHL (rd : RegNum) (rs1 : RegNum) (rm : BitVec 3) : Length.Statement (.fcvtHL rd rs1 rm) := length_word _ (by simp) (by simp)
theorem Length.fcvtHLu (rd : RegNum) (rs1 : RegNum) (rm : BitVec 3) : Length.Statement (.fcvtHLu rd rs1 rm) := length_word _ (by simp) (by simp)
theorem Length.feqH (rd : RegNum) (rs1 : RegNum) (rs2 : RegNum) : Length.Statement (.feqH rd rs1 rs2) := length_word _ (by simp) (by simp)
theorem Length.fltH (rd : RegNum) (rs1 : RegNum) (rs2 : RegNum) : Length.Statement (.fltH rd rs1 rs2) := length_word _ (by simp) (by simp)
theorem Length.fleH (rd : RegNum) (rs1 : RegNum) (rs2 : RegNum) : Length.Statement (.fleH rd rs1 rs2) := length_word _ (by simp) (by simp)
theorem Length.fclassH (rd : RegNum) (rs1 : RegNum) : Length.Statement (.fclassH rd rs1) := length_word _ (by simp) (by simp)
theorem Length.fcvtSH (rd : RegNum) (rs1 : RegNum) (rm : BitVec 3) : Length.Statement (.fcvtSH rd rs1 rm) := length_word _ (by simp) (by simp)
theorem Length.fcvtHS (rd : RegNum) (rs1 : RegNum) (rm : BitVec 3) : Length.Statement (.fcvtHS rd rs1 rm) := length_word _ (by simp) (by simp)
theorem Length.fcvtDH (rd : RegNum) (rs1 : RegNum) (rm : BitVec 3) : Length.Statement (.fcvtDH rd rs1 rm) := length_word _ (by simp) (by simp)
theorem Length.fcvtHD (rd : RegNum) (rs1 : RegNum) (rm : BitVec 3) : Length.Statement (.fcvtHD rd rs1 rm) := length_word _ (by simp) (by simp)
theorem Length.fcvtQH (rd : RegNum) (rs1 : RegNum) (rm : BitVec 3) : Length.Statement (.fcvtQH rd rs1 rm) := length_word _ (by simp) (by simp)
theorem Length.fcvtHQ (rd : RegNum) (rs1 : RegNum) (rm : BitVec 3) : Length.Statement (.fcvtHQ rd rs1 rm) := length_word _ (by simp) (by simp)
theorem Length.fmvXH (rd : RegNum) (rs1 : RegNum) : Length.Statement (.fmvXH rd rs1) := length_word _ (by simp) (by simp)
theorem Length.fmvHX (rd : RegNum) (rs1 : RegNum) : Length.Statement (.fmvHX rd rs1) := length_word _ (by simp) (by simp)
theorem Length.cAddi4spn (rd : CRegNum) (imm : BitVec 8) : Length.Statement (.cAddi4spn rd imm) := length_parcel _ (by simp)
theorem Length.cFld (rd : CRegNum) (rs1 : CRegNum) (imm : BitVec 5) : Length.Statement (.cFld rd rs1 imm) := length_parcel _ (by simp)
theorem Length.cLw (rd : CRegNum) (rs1 : CRegNum) (imm : BitVec 5) : Length.Statement (.cLw rd rs1 imm) := length_parcel _ (by simp)
theorem Length.cFlw (rd : CRegNum) (rs1 : CRegNum) (imm : BitVec 5) : Length.Statement (.cFlw rd rs1 imm) := length_parcel _ (by simp)
theorem Length.cLd (rd : CRegNum) (rs1 : CRegNum) (imm : BitVec 5) : Length.Statement (.cLd rd rs1 imm) := length_parcel _ (by simp)
theorem Length.cFsd (rs2 : CRegNum) (rs1 : CRegNum) (imm : BitVec 5) : Length.Statement (.cFsd rs2 rs1 imm) := length_parcel _ (by simp)
theorem Length.cSw (rs2 : CRegNum) (rs1 : CRegNum) (imm : BitVec 5) : Length.Statement (.cSw rs2 rs1 imm) := length_parcel _ (by simp)
theorem Length.cFsw (rs2 : CRegNum) (rs1 : CRegNum) (imm : BitVec 5) : Length.Statement (.cFsw rs2 rs1 imm) := length_parcel _ (by simp)
theorem Length.cSd (rs2 : CRegNum) (rs1 : CRegNum) (imm : BitVec 5) : Length.Statement (.cSd rs2 rs1 imm) := length_parcel _ (by simp)
theorem Length.cNop (imm : BitVec 6) : Length.Statement (.cNop imm) := length_parcel _ (by simp)
theorem Length.cAddi (rd : RegNum) (imm : BitVec 6) : Length.Statement (.cAddi rd imm) := length_parcel _ (by simp)
theorem Length.cJal (off : BitVec 11) : Length.Statement (.cJal off) := length_parcel _ (by simp)
theorem Length.cAddiw (rd : RegNum) (imm : BitVec 6) : Length.Statement (.cAddiw rd imm) := length_parcel _ (by simp)
theorem Length.cLi (rd : RegNum) (imm : BitVec 6) : Length.Statement (.cLi rd imm) := length_parcel _ (by simp)
theorem Length.cAddi16sp (imm : BitVec 6) : Length.Statement (.cAddi16sp imm) := length_parcel _ (by simp)
theorem Length.cLui (rd : RegNum) (imm : BitVec 6) : Length.Statement (.cLui rd imm) := length_parcel _ (by simp)
theorem Length.cSrli (rd : CRegNum) (shamt : BitVec 6) : Length.Statement (.cSrli rd shamt) := length_parcel _ (by simp)
theorem Length.cSrai (rd : CRegNum) (shamt : BitVec 6) : Length.Statement (.cSrai rd shamt) := length_parcel _ (by simp)
theorem Length.cAndi (rd : CRegNum) (imm : BitVec 6) : Length.Statement (.cAndi rd imm) := length_parcel _ (by simp)
theorem Length.cSub (rd : CRegNum) (rs2 : CRegNum) : Length.Statement (.cSub rd rs2) := length_parcel _ (by simp)
theorem Length.cXor (rd : CRegNum) (rs2 : CRegNum) : Length.Statement (.cXor rd rs2) := length_parcel _ (by simp)
theorem Length.cOr (rd : CRegNum) (rs2 : CRegNum) : Length.Statement (.cOr rd rs2) := length_parcel _ (by simp)
theorem Length.cAnd (rd : CRegNum) (rs2 : CRegNum) : Length.Statement (.cAnd rd rs2) := length_parcel _ (by simp)
theorem Length.cSubw (rd : CRegNum) (rs2 : CRegNum) : Length.Statement (.cSubw rd rs2) := length_parcel _ (by simp)
theorem Length.cAddw (rd : CRegNum) (rs2 : CRegNum) : Length.Statement (.cAddw rd rs2) := length_parcel _ (by simp)
theorem Length.cJ (off : BitVec 11) : Length.Statement (.cJ off) := length_parcel _ (by simp)
theorem Length.cBeqz (rs1 : CRegNum) (off : BitVec 8) : Length.Statement (.cBeqz rs1 off) := length_parcel _ (by simp)
theorem Length.cBnez (rs1 : CRegNum) (off : BitVec 8) : Length.Statement (.cBnez rs1 off) := length_parcel _ (by simp)
theorem Length.cSlli (rd : RegNum) (shamt : BitVec 6) : Length.Statement (.cSlli rd shamt) := length_parcel _ (by simp)
theorem Length.cFldsp (rd : RegNum) (imm : BitVec 6) : Length.Statement (.cFldsp rd imm) := length_parcel _ (by simp)
theorem Length.cLwsp (rd : RegNum) (imm : BitVec 6) : Length.Statement (.cLwsp rd imm) := length_parcel _ (by simp)
theorem Length.cFlwsp (rd : RegNum) (imm : BitVec 6) : Length.Statement (.cFlwsp rd imm) := length_parcel _ (by simp)
theorem Length.cLdsp (rd : RegNum) (imm : BitVec 6) : Length.Statement (.cLdsp rd imm) := length_parcel _ (by simp)
theorem Length.cJr (rs1 : RegNum) : Length.Statement (.cJr rs1) := length_parcel _ (by simp)
theorem Length.cMv (rd : RegNum) (rs2 : RegNum) : Length.Statement (.cMv rd rs2) := length_parcel _ (by simp)
theorem Length.cEbreak : Length.Statement (.cEbreak) := length_const _ (by decide) (by decide)
theorem Length.cJalr (rs1 : RegNum) : Length.Statement (.cJalr rs1) := length_parcel _ (by simp)
theorem Length.cAdd (rd : RegNum) (rs2 : RegNum) : Length.Statement (.cAdd rd rs2) := length_parcel _ (by simp)
theorem Length.cFsdsp (rs2 : RegNum) (imm : BitVec 6) : Length.Statement (.cFsdsp rs2 imm) := length_parcel _ (by simp)
theorem Length.cSwsp (rs2 : RegNum) (imm : BitVec 6) : Length.Statement (.cSwsp rs2 imm) := length_parcel _ (by simp)
theorem Length.cFswsp (rs2 : RegNum) (imm : BitVec 6) : Length.Statement (.cFswsp rs2 imm) := length_parcel _ (by simp)
theorem Length.cSdsp (rs2 : RegNum) (imm : BitVec 6) : Length.Statement (.cSdsp rs2 imm) := length_parcel _ (by simp)
theorem Length.cNtlP1 : Length.Statement (.cNtlP1) := length_const _ (by decide) (by decide)
theorem Length.cNtlPall : Length.Statement (.cNtlPall) := length_const _ (by decide) (by decide)
theorem Length.cNtlS1 : Length.Statement (.cNtlS1) := length_const _ (by decide) (by decide)
theorem Length.cNtlAll : Length.Statement (.cNtlAll) := length_const _ (by decide) (by decide)

end Laws

end Sys2Proof
end

