-- ==== Sys2Proof/Tests/Slice0.lean ====
section
/-! SUPPORT. Tests: a word of every instruction and what it decodes to, ill-formed terms that the checks refuse,
vectors of 95_test_vectors.md and 96_test_vectors_fp.md run by `step`, and witnesses: each applies a statement of
Sys2Proof/Certificates/Slice0/Obligations.lean to a concrete state, so that its proof gives every hypothesis. -/

set_option Elab.async false

namespace Sys2Proof.Tests

open Sys2Proof Sys2Proof.Machine

/-! ### Configurations and states -/

/-- No extension. -/
def noExt : Ext :=
  { m := false, zmmul := false, a := false, zam := false, f := false, d := false, q := false, zfh := false,
    zfhmin := false, c := false, zicsr := false, zifencei := false, zicntr := false, zihpm := false,
    zihintntl := false, zihintpause := false, zfinx := false, zdinx := false, zhinx := false, zhinxmin := false,
    ztso := false }

/-- A configuration with an XLEN and extensions, its whole address space main memory. -/
def cfgOf (xl : Xlen) (e : Ext) : Cfg :=
  { Config.reset with xlen := xl, ext := e, regions := [{ Config.resetRegion with size := 2 ^ xl.bits }] }

/-- RV32 with F and C: the five rows that only RV32 has decode here. -/
def rv32Cfg : Cfg := cfgOf .rv32 { noExt with f := true, c := true, zicsr := true }

/-- Main memory at 0x1000 to 0x2FFF only. -/
def smallMap : List Region := [{ Config.resetRegion with base := 0x1000, size := 0x2000 }]

/-- Main memory, a device that accepts AMOSWAP only and refuses misaligned accesses, and read-only memory. -/
def mixedMap : List Region :=
  smallMap ++
    [{ base := 0x4000, size := 0x100, kind := .io, r := true, w := true, x := false, amos := [.swap], lrsc := false,
       misLoad := .misaligned, misStore := .accessFault, stronglyOrdered := true, channel := 0 },
     { Config.resetRegion with base := 0x5000, size := 0x100, w := false }]

/-- The reset configuration with that map. -/
def mixedCfg : Cfg := { Config.reset with regions := mixedMap }

/-- A state at a pc with some registers, `fcsr` and some bytes of memory given. -/
def mk (c : Cfg) (pc : Word) (x f : List (Nat × Nat)) (fcsr : Nat) (mem : List (Nat × Nat)) : State :=
  let s := State.launch c (Launch.zero pc)
  let s := x.foldl (fun s p => writeX (BitVec.ofNat 5 p.1) (BitVec.ofNat 64 p.2) s) s
  let s := f.foldl (fun s p => writeF (BitVec.ofNat 5 p.1) (BitVec.ofNat 128 p.2) s) s
  let s := setFcsr (BitVec.ofNat 64 fcsr) s
  mem.foldl (fun s p => { s with mem := Memory.set s.mem p.1 (BitVec.ofNat 8 p.2) }) s

/-- The outcome is a retired instruction with this pc, these registers, this `fcsr` and these bytes. -/
def gives (r : Res) (pc : Word) (x f : List (Nat × Nat)) (fcsr : Nat) (mem : List (Nat × Nat)) : Bool :=
  match r with
  | .next t =>
    t.trap.isNone && t.pc == pc && t.instret == 1 &&
      x.all (fun p => readX (BitVec.ofNat 5 p.1) t == BitVec.ofNat 64 p.2) &&
      f.all (fun p => readF (BitVec.ofNat 5 p.1) t == (BitVec.ofNat (flen t.cfg) p.2).setWidth 128) &&
      fcsrValue t == BitVec.ofNat 64 fcsr && mem.all (fun p => Memory.get t.mem p.1 == BitVec.ofNat 8 p.2)
  | .fault _ => false
  | .refused _ => false

/-- The outcome is a trap taken with this record and nothing retired. -/
def traps (r : Res) (e : Exn) (epc info : Word) : Bool :=
  match r with
  | .next t => decide (t.trap = some ⟨e, epc, info⟩) && t.pc == epc && t.instret == 0
  | .fault _ => false
  | .refused _ => false

/-- Each word decodes to the instruction beside it. -/
abbrev decodesAll (c : Cfg) (l : List (InstrWord × Instr)) : Prop := ∀ p ∈ l, decode c p.1 = .instr p.2

/-! ### Decoding: one word of every row, written from the formats of 30_encoding.md and 48_c.md -/

theorem test_decode_control : decodesAll Config.reset [
    (0x9A3C52B7, .lui 5 0x9a3c5), (0x9A3C5297, .auipc 5 0x9a3c5), (0xF8A342EF, .jal 5 0x9a3c5),
    (0xCABB0B63, .beq 22 11 0xa5b), (0xCABB1B63, .bne 22 11 0xa5b), (0xCABB4B63, .blt 22 11 0xa5b),
    (0xCABB5B63, .bge 22 11 0xa5b), (0xCABB6B63, .bltu 22 11 0xa5b), (0xCABB7B63, .bgeu 22 11 0xa5b)] := by decide +kernel

theorem test_decode_integerImm : decodesAll Config.reset [
    (0xA5BB02E7, .jalr 5 22 0xa5b), (0xA5BB0283, .lb 5 22 0xa5b), (0xA5BB1283, .lh 5 22 0xa5b),
    (0xA5BB2283, .lw 5 22 0xa5b), (0xA5BB4283, .lbu 5 22 0xa5b), (0xA5BB5283, .lhu 5 22 0xa5b),
    (0xA4BB0DA3, .sb 11 22 0xa5b), (0xA4BB1DA3, .sh 11 22 0xa5b), (0xA4BB2DA3, .sw 11 22 0xa5b),
    (0xA5BB0293, .addi 5 22 0xa5b), (0xA5BB2293, .slti 5 22 0xa5b), (0xA5BB3293, .sltiu 5 22 0xa5b),
    (0xA5BB4293, .xori 5 22 0xa5b), (0xA5BB6293, .ori 5 22 0xa5b), (0xA5BB7293, .andi 5 22 0xa5b),
    (0xA5BB6283, .lwu 5 22 0xa5b), (0xA5BB3283, .ld 5 22 0xa5b), (0xA4BB3DA3, .sd 11 22 0xa5b),
    (0xA5BB029B, .addiw 5 22 0xa5b)] := by decide +kernel

theorem test_decode_integerReg : decodesAll Config.reset [
    (0x02DB1293, .slli 5 22 0x2d), (0x02DB5293, .srli 5 22 0x2d), (0x42DB5293, .srai 5 22 0x2d),
    (0x00BB02B3, .add 5 22 11), (0x40BB02B3, .sub 5 22 11), (0x00BB12B3, .sll 5 22 11),
    (0x00BB22B3, .slt 5 22 11), (0x00BB32B3, .sltu 5 22 11), (0x00BB42B3, .xor 5 22 11),
    (0x00BB52B3, .srl 5 22 11), (0x40BB52B3, .sra 5 22 11), (0x00BB62B3, .or 5 22 11),
    (0x00BB72B3, .and 5 22 11), (0x016B129B, .slliw 5 22 0x16), (0x016B529B, .srliw 5 22 0x16),
    (0x416B529B, .sraiw 5 22 0x16), (0x00BB02BB, .addw 5 22 11), (0x40BB02BB, .subw 5 22 11),
    (0x00BB12BB, .sllw 5 22 11), (0x00BB52BB, .srlw 5 22 11), (0x40BB52BB, .sraw 5 22 11)] := by decide +kernel

theorem test_decode_system : decodesAll Config.reset [
    (0x56BB028F, .fence 5 6 11 22 5), (0x8330000F, .fenceTso), (0x0100000F, .pause), (0x00000073, .ecall),
    (0x00100073, .ebreak), (0x00200033, .ntlP1), (0x00300033, .ntlPall), (0x00400033, .ntlS1),
    (0x00500033, .ntlAll), (0xA5BB128F, .fenceI 0xa5b 22 5), (0xC8BB12F3, .csrrw 5 0xc8b 22),
    (0xC8BB22F3, .csrrs 5 0xc8b 22), (0xC8BB32F3, .csrrc 5 0xc8b 22), (0xC8B9D2F3, .csrrwi 5 0xc8b 19),
    (0xC8B9E2F3, .csrrsi 5 0xc8b 19), (0xC8B9F2F3, .csrrci 5 0xc8b 19)] := by decide +kernel

theorem test_decode_mulDiv : decodesAll Config.reset [
    (0x02BB02B3, .mul 5 22 11), (0x02BB12B3, .mulh 5 22 11), (0x02BB22B3, .mulhsu 5 22 11),
    (0x02BB32B3, .mulhu 5 22 11), (0x02BB42B3, .div 5 22 11), (0x02BB52B3, .divu 5 22 11),
    (0x02BB62B3, .rem 5 22 11), (0x02BB72B3, .remu 5 22 11), (0x02BB02BB, .mulw 5 22 11),
    (0x02BB42BB, .divw 5 22 11), (0x02BB52BB, .divuw 5 22 11), (0x02BB62BB, .remw 5 22 11),
    (0x02BB72BB, .remuw 5 22 11)] := by decide +kernel

theorem test_decode_atomic : decodesAll Config.reset [
    (0x140B22AF, .lrW 5 22 1 0), (0x1CBB22AF, .scW 5 22 11 1 0), (0x0CBB22AF, .amoswapW 5 22 11 1 0),
    (0x04BB22AF, .amoaddW 5 22 11 1 0), (0x24BB22AF, .amoxorW 5 22 11 1 0), (0x64BB22AF, .amoandW 5 22 11 1 0),
    (0x44BB22AF, .amoorW 5 22 11 1 0), (0x84BB22AF, .amominW 5 22 11 1 0), (0xA4BB22AF, .amomaxW 5 22 11 1 0),
    (0xC4BB22AF, .amominuW 5 22 11 1 0), (0xE4BB22AF, .amomaxuW 5 22 11 1 0), (0x140B32AF, .lrD 5 22 1 0),
    (0x1CBB32AF, .scD 5 22 11 1 0), (0x0CBB32AF, .amoswapD 5 22 11 1 0), (0x04BB32AF, .amoaddD 5 22 11 1 0),
    (0x24BB32AF, .amoxorD 5 22 11 1 0), (0x64BB32AF, .amoandD 5 22 11 1 0), (0x44BB32AF, .amoorD 5 22 11 1 0),
    (0x84BB32AF, .amominD 5 22 11 1 0), (0xA4BB32AF, .amomaxD 5 22 11 1 0), (0xC4BB32AF, .amominuD 5 22 11 1 0),
    (0xE4BB32AF, .amomaxuD 5 22 11 1 0)] := by decide +kernel

theorem test_decode_floatS : decodesAll Config.reset [
    (0xA5BB2287, .flw 5 22 0xa5b), (0xA4BB2DA7, .fsw 11 22 0xa5b), (0xE0BB22C3, .fmaddS 5 22 11 28 2),
    (0xE0BB22C7, .fmsubS 5 22 11 28 2), (0xE0BB22CB, .fnmsubS 5 22 11 28 2),
    (0xE0BB22CF, .fnmaddS 5 22 11 28 2), (0x00BB22D3, .faddS 5 22 11 2), (0x08BB22D3, .fsubS 5 22 11 2),
    (0x10BB22D3, .fmulS 5 22 11 2), (0x18BB22D3, .fdivS 5 22 11 2), (0x580B22D3, .fsqrtS 5 22 2),
    (0x20BB02D3, .fsgnjS 5 22 11), (0x20BB12D3, .fsgnjnS 5 22 11), (0x20BB22D3, .fsgnjxS 5 22 11),
    (0x28BB02D3, .fminS 5 22 11), (0x28BB12D3, .fmaxS 5 22 11), (0xC00B22D3, .fcvtWS 5 22 2),
    (0xC01B22D3, .fcvtWuS 5 22 2), (0xC02B22D3, .fcvtLS 5 22 2), (0xC03B22D3, .fcvtLuS 5 22 2),
    (0xD00B22D3, .fcvtSW 5 22 2), (0xD01B22D3, .fcvtSWu 5 22 2), (0xD02B22D3, .fcvtSL 5 22 2),
    (0xD03B22D3, .fcvtSLu 5 22 2), (0xA0BB22D3, .feqS 5 22 11), (0xA0BB12D3, .fltS 5 22 11),
    (0xA0BB02D3, .fleS 5 22 11), (0xE00B12D3, .fclassS 5 22), (0xE00B02D3, .fmvXW 5 22),
    (0xF00B02D3, .fmvWX 5 22), (0xA5BB1287, .flh 5 22 0xa5b)] := by decide +kernel

theorem test_decode_floatD : decodesAll Config.reset [
    (0xA5BB3287, .fld 5 22 0xa5b), (0xA4BB3DA7, .fsd 11 22 0xa5b), (0xE2BB22C3, .fmaddD 5 22 11 28 2),
    (0xE2BB22C7, .fmsubD 5 22 11 28 2), (0xE2BB22CB, .fnmsubD 5 22 11 28 2),
    (0xE2BB22CF, .fnmaddD 5 22 11 28 2), (0x02BB22D3, .faddD 5 22 11 2), (0x0ABB22D3, .fsubD 5 22 11 2),
    (0x12BB22D3, .fmulD 5 22 11 2), (0x1ABB22D3, .fdivD 5 22 11 2), (0x5A0B22D3, .fsqrtD 5 22 2),
    (0x22BB02D3, .fsgnjD 5 22 11), (0x22BB12D3, .fsgnjnD 5 22 11), (0x22BB22D3, .fsgnjxD 5 22 11),
    (0x2ABB02D3, .fminD 5 22 11), (0x2ABB12D3, .fmaxD 5 22 11), (0xC20B22D3, .fcvtWD 5 22 2),
    (0xC21B22D3, .fcvtWuD 5 22 2), (0xC22B22D3, .fcvtLD 5 22 2), (0xC23B22D3, .fcvtLuD 5 22 2),
    (0xD20B22D3, .fcvtDW 5 22 2), (0xD21B22D3, .fcvtDWu 5 22 2), (0xD22B22D3, .fcvtDL 5 22 2),
    (0xD23B22D3, .fcvtDLu 5 22 2), (0xA2BB22D3, .feqD 5 22 11), (0xA2BB12D3, .fltD 5 22 11),
    (0xA2BB02D3, .fleD 5 22 11), (0xE20B12D3, .fclassD 5 22), (0x401B22D3, .fcvtSD 5 22 2),
    (0x420B22D3, .fcvtDS 5 22 2), (0xE20B02D3, .fmvXD 5 22), (0xF20B02D3, .fmvDX 5 22)] := by decide +kernel

theorem test_decode_floatQ : decodesAll Config.reset [
    (0xA5BB4287, .flq 5 22 0xa5b), (0xA4BB4DA7, .fsq 11 22 0xa5b), (0xE6BB22C3, .fmaddQ 5 22 11 28 2),
    (0xE6BB22C7, .fmsubQ 5 22 11 28 2), (0xE6BB22CB, .fnmsubQ 5 22 11 28 2),
    (0xE6BB22CF, .fnmaddQ 5 22 11 28 2), (0x06BB22D3, .faddQ 5 22 11 2), (0x0EBB22D3, .fsubQ 5 22 11 2),
    (0x16BB22D3, .fmulQ 5 22 11 2), (0x1EBB22D3, .fdivQ 5 22 11 2), (0x5E0B22D3, .fsqrtQ 5 22 2),
    (0x26BB02D3, .fsgnjQ 5 22 11), (0x26BB12D3, .fsgnjnQ 5 22 11), (0x26BB22D3, .fsgnjxQ 5 22 11),
    (0x2EBB02D3, .fminQ 5 22 11), (0x2EBB12D3, .fmaxQ 5 22 11), (0xC60B22D3, .fcvtWQ 5 22 2),
    (0xC61B22D3, .fcvtWuQ 5 22 2), (0xC62B22D3, .fcvtLQ 5 22 2), (0xC63B22D3, .fcvtLuQ 5 22 2),
    (0xD60B22D3, .fcvtQW 5 22 2), (0xD61B22D3, .fcvtQWu 5 22 2), (0xD62B22D3, .fcvtQL 5 22 2),
    (0xD63B22D3, .fcvtQLu 5 22 2), (0xA6BB22D3, .feqQ 5 22 11), (0xA6BB12D3, .fltQ 5 22 11),
    (0xA6BB02D3, .fleQ 5 22 11), (0xE60B12D3, .fclassQ 5 22), (0x403B22D3, .fcvtSQ 5 22 2),
    (0x460B22D3, .fcvtQS 5 22 2), (0x423B22D3, .fcvtDQ 5 22 2), (0x461B22D3, .fcvtQD 5 22 2)] := by decide +kernel

theorem test_decode_floatH : decodesAll Config.reset [
    (0xA4BB1DA7, .fsh 11 22 0xa5b), (0xE4BB22C3, .fmaddH 5 22 11 28 2), (0xE4BB22C7, .fmsubH 5 22 11 28 2),
    (0xE4BB22CB, .fnmsubH 5 22 11 28 2), (0xE4BB22CF, .fnmaddH 5 22 11 28 2), (0x04BB22D3, .faddH 5 22 11 2),
    (0x0CBB22D3, .fsubH 5 22 11 2), (0x14BB22D3, .fmulH 5 22 11 2), (0x1CBB22D3, .fdivH 5 22 11 2),
    (0x5C0B22D3, .fsqrtH 5 22 2), (0x24BB02D3, .fsgnjH 5 22 11), (0x24BB12D3, .fsgnjnH 5 22 11),
    (0x24BB22D3, .fsgnjxH 5 22 11), (0x2CBB02D3, .fminH 5 22 11), (0x2CBB12D3, .fmaxH 5 22 11),
    (0xC40B22D3, .fcvtWH 5 22 2), (0xC41B22D3, .fcvtWuH 5 22 2), (0xC42B22D3, .fcvtLH 5 22 2),
    (0xC43B22D3, .fcvtLuH 5 22 2), (0xD40B22D3, .fcvtHW 5 22 2), (0xD41B22D3, .fcvtHWu 5 22 2),
    (0xD42B22D3, .fcvtHL 5 22 2), (0xD43B22D3, .fcvtHLu 5 22 2), (0xA4BB22D3, .feqH 5 22 11),
    (0xA4BB12D3, .fltH 5 22 11), (0xA4BB02D3, .fleH 5 22 11), (0xE40B12D3, .fclassH 5 22),
    (0x402B22D3, .fcvtSH 5 22 2), (0x440B22D3, .fcvtHS 5 22 2), (0x422B22D3, .fcvtDH 5 22 2),
    (0x441B22D3, .fcvtHD 5 22 2), (0x462B22D3, .fcvtQH 5 22 2), (0x443B22D3, .fcvtHQ 5 22 2),
    (0xE40B02D3, .fmvXH 5 22), (0xF40B02D3, .fmvHX 5 22)] := by decide +kernel

theorem test_decode_compressedA : decodesAll Config.reset [
    (0x00000DAC, .cAddi4spn 3 0xb6), (0x00003B4C, .cFld 3 6 0x16), (0x00004F2C, .cLw 3 6 0x16),
    (0x00007B4C, .cLd 3 6 0x16), (0x0000BB50, .cFsd 4 6 0x16), (0x0000CF30, .cSw 4 6 0x16),
    (0x0000FB50, .cSd 4 6 0x16), (0x00001035, .cNop 0x2d), (0x000012B5, .cAddi 5 0x2d),
    (0x000032B5, .cAddiw 5 0x2d), (0x000052B5, .cLi 5 0x2d), (0x00007169, .cAddi16sp 0x2d),
    (0x000072B5, .cLui 5 0x2d), (0x000091B5, .cSrli 3 0x2d), (0x000095B5, .cSrai 3 0x2d),
    (0x000099B5, .cAndi 3 0x2d), (0x00008D91, .cSub 3 4), (0x00008DB1, .cXor 3 4), (0x00008DD1, .cOr 3 4),
    (0x00008DF1, .cAnd 3 4), (0x00009D91, .cSubw 3 4), (0x00009DB1, .cAddw 3 4), (0x0000B6B5, .cJ 0x5b6),
    (0x0000D735, .cBeqz 6 0xb6), (0x0000F735, .cBnez 6 0xb6), (0x000012B6, .cSlli 5 0x2d),
    (0x000032B6, .cFldsp 5 0x2d), (0x000052DA, .cLwsp 5 0x2d), (0x000072B6, .cLdsp 5 0x2d),
    (0x00008B02, .cJr 22), (0x000082AE, .cMv 5 11), (0x00009002, .cEbreak), (0x00009B02, .cJalr 22),
    (0x000092AE, .cAdd 5 11), (0x0000B6AE, .cFsdsp 11 0x2d), (0x0000DB2E, .cSwsp 11 0x2d),
    (0x0000F6AE, .cSdsp 11 0x2d), (0x0000900A, .cNtlP1), (0x0000900E, .cNtlPall), (0x00009012, .cNtlS1)] := by decide +kernel

theorem test_decode_compressedB : decodesAll Config.reset [
    (0x00009016, .cNtlAll)] := by decide +kernel

theorem test_decode_rv32Only : decodesAll rv32Cfg [
    (0x00006F2C, .cFlw 3 6 0x16), (0x0000EF30, .cFsw 4 6 0x16), (0x000036B5, .cJal 0x5b6),
    (0x000072DA, .cFlwsp 5 0x2d), (0x0000FB2E, .cFswsp 11 0x2d)] := by decide +kernel
/-! ### Ill-formed terms -/

theorem test_wf_register_above_15_embedded :
    (Instr.add 16 1 1).wf { Config.reset with embedded := true } = false := by decide +kernel
theorem test_wf_shift_amount_above_31_on_rv32 : (Instr.slli 1 1 32).wf rv32Cfg = false := by decide +kernel
theorem test_wf_compressed_shift_above_31_on_rv32 : (Instr.cSlli 1 32).wf rv32Cfg = false := by decide +kernel
theorem test_wf_odd_pair_with_zdinx_on_rv32 :
    (Instr.faddD 1 2 2 0).wf (cfgOf .rv32 { noExt with zfinx := true, zdinx := true, zicsr := true }) = false := by
  decide +kernel
theorem test_wf_add_that_is_ntl : (Instr.add 0 0 2).wf Config.reset = false := by decide +kernel
theorem test_wf_fence_that_is_tso : (Instr.fence 8 3 3 0 0).wf Config.reset = false := by decide +kernel
theorem test_wf_fence_that_is_pause : (Instr.fence 0 1 0 0 0).wf Config.reset = false := by decide +kernel
theorem test_wf_addi4spn_of_zero : (Instr.cAddi4spn 0 0).wf Config.reset = false := by decide +kernel
theorem test_wf_c_addi_to_x0 : (Instr.cAddi 0 1).wf Config.reset = false := by decide +kernel
theorem test_wf_c_addiw_to_x0 : (Instr.cAddiw 0 1).wf Config.reset = false := by decide +kernel
theorem test_wf_addi16sp_of_zero : (Instr.cAddi16sp 0).wf Config.reset = false := by decide +kernel
theorem test_wf_c_lui_of_x2 : (Instr.cLui 2 1).wf Config.reset = false := by decide +kernel
theorem test_wf_c_lui_of_zero : (Instr.cLui 1 0).wf Config.reset = false := by decide +kernel
theorem test_wf_c_lwsp_to_x0 : (Instr.cLwsp 0 1).wf Config.reset = false := by decide +kernel
theorem test_wf_c_jr_of_x0 : (Instr.cJr 0).wf Config.reset = false := by decide +kernel
theorem test_wf_c_mv_of_x0 : (Instr.cMv 1 0).wf Config.reset = false := by decide +kernel
theorem test_wf_c_add_that_is_ntl : (Instr.cAdd 0 2).wf Config.reset = false := by decide +kernel
theorem test_wf_ld_on_rv32 : (Instr.ld 1 1 0).wf rv32Cfg = false := by decide +kernel
theorem test_wf_mul_without_m : (Instr.mul 1 1 1).wf rv32Cfg = false := by decide +kernel
theorem test_wf_flw_with_zfinx :
    (Instr.flw 1 1 0).wf (cfgOf .rv64 { noExt with zfinx := true, zicsr := true }) = false := by decide +kernel
theorem test_wf_d_without_f : Ext.closed { noExt with d := true, zicsr := true } = false := by decide +kernel
theorem test_wf_zfinx_with_f :
    Ext.closed { noExt with zfinx := true, f := true, zicsr := true } = false := by decide +kernel
theorem test_wf_q_on_rv32 :
    Cfg.wf (cfgOf .rv32 { noExt with f := true, d := true, q := true, zicsr := true }) = false ∧
      Cfg.wf (cfgOf .rv64 { noExt with f := true, d := true, q := true, zicsr := true }) = true := by decide +kernel
theorem test_wf_overlapping_regions :
    Cfg.wf { Config.reset with regions := smallMap ++ [{ Config.resetRegion with base := 0x2FFF, size := 1 }] } = false := by
  decide +kernel
theorem test_wf_region_beyond_the_address_space :
    Cfg.wf { cfgOf .rv32 noExt with regions := [Config.resetRegion] } = false := by decide +kernel
theorem test_wf_reset_configuration : Cfg.wf Config.reset = true := by decide +kernel
theorem test_wf_mixed_configuration : Cfg.wf mixedCfg = true := by decide +kernel
theorem test_reset_memory_canonical : Memory.wf State.reset.mem = true := by decide +kernel

/-! ### Vectors of the spec, by their identifiers there -/

theorem test_vector_I2 :
    gives (step ((mk (cfgOf .rv32 noExt) 4096 [(1,0x7FFFFFFF)] [] 0 []).withFetchWord 32 0x108113)) 4100
      [(2,0x80000000)] [] 0 [] = true := by decide +kernel

theorem test_vector_I4 :
    gives (step ((mk (cfgOf .rv32 noExt) 4096 [(1,0xFFFFFFFE)] [] 0 []).withFetchWord 32 0xFFF0A113)) 4100 [(2,1)]
      [] 0 [] = true := by decide +kernel

theorem test_vector_I12 :
    gives (step ((mk (cfgOf .rv32 noExt) 4096 [(1,0x80000010)] [] 0 []).withFetchWord 32 0x4040D113)) 4100
      [(2,0xF8000001)] [] 0 [] = true := by decide +kernel

theorem test_vector_I20 :
    gives (step ((mk (cfgOf .rv32 noExt) 4096 [(1,0x80000000), (2,1)] [] 0 []).withFetchWord 32 0x20B1B3)) 4100
      [(3,0)] [] 0 [] = true := by decide +kernel

theorem test_vector_I30 :
    traps (step ((mk (cfgOf .rv32 noExt) 4096 [] [] 0 []).withFetchWord 32 0x2000EF)) .instrAddrMisaligned 4096
      4098 = true := by decide +kernel

theorem test_vector_I40 :
    gives (step ((mk (cfgOf .rv32 noExt) 4096 [(1,0), (2,1)] [] 0 []).withFetchWord 32 0x20F663)) 4100 [] [] 0 [] =
      true := by decide +kernel

theorem test_vector_I50 :
    gives (step ((mk (cfgOf .rv32 noExt) 4096 [(10,8192)] [] 0 [(8192,127), (8193,255), (8194,128),
      (8195,129)]).withFetchWord 32 0x52003)) 4100 [(0,0)] [] 0 [] = true := by decide +kernel

theorem test_vector_I60 :
    traps (step ((mk { cfgOf .rv32 noExt with embedded := true } 4096 [(1,1)] [] 0 []).withFetchWord 32 0x10081B3))
      .illegalInstruction 4096 0x10081B3 = true := by decide +kernel

theorem test_vector_X6 :
    traps (step ((mk { cfgOf .rv32 noExt with regions := smallMap } 0x3000 [] [] 0 []))) .instrAccessFault 0x3000
      0x3000 = true := by decide +kernel

theorem test_vector_L8 :
    gives (step ((mk (cfgOf .rv64 noExt) 4096 [(1,0xFFFFFFFF80000000)] [] 0 []).withFetchWord 32 0x10D11B)) 4100
      [(2,0x40000000)] [] 0 [] = true := by decide +kernel

theorem test_vector_L20 :
    gives (step ((mk (cfgOf .rv64 noExt) 4096 [(10,8192)] [] 0 [(8192,51), (8193,34), (8194,17), (8195,128),
      (8196,204), (8197,221), (8198,238), (8199,255)]).withFetchWord 32 0x52283)) 4100 [(5,0xFFFFFFFF80112233)] []
      0 [] = true := by decide +kernel

theorem test_vector_L27 :
    traps (step ((mk (cfgOf .rv32 noExt) 4096 [(10,8192)] [] 0 []).withFetchWord 32 0x53283)) .illegalInstruction
      4096 0x53283 = true := by decide +kernel

theorem test_vector_M3 :
    gives (step ((mk (cfgOf .rv32 { noExt with m := true }) 4096 [(1,0xFFFFFFFF), (2,0xFFFFFFFF)] [] 0
      []).withFetchWord 32 0x22091B3)) 4100 [(3,0)] [] 0 [] = true := by decide +kernel

theorem test_vector_M9 :
    gives (step ((mk (cfgOf .rv32 { noExt with m := true }) 4096 [(1,7), (2,0xFFFFFFFE)] [] 0 []).withFetchWord 32
      0x220E1B3)) 4100 [(3,1)] [] 0 [] = true := by decide +kernel

theorem test_vector_M15 :
    gives (step ((mk (cfgOf .rv32 { noExt with m := true }) 4096 [(1,5), (2,0)] [] 0 []).withFetchWord 32
      0x220F1B3)) 4100 [(3,5)] [] 0 [] = true := by decide +kernel

theorem test_vector_N4 :
    gives (step ((mk (cfgOf .rv64 { noExt with m := true }) 4096 [(1,0xFFFFFFFFFFFFFFFF), (2,2)] [] 0
      []).withFetchWord 32 0x220B1B3)) 4100 [(3,1)] [] 0 [] = true := by decide +kernel

theorem test_vector_N8 :
    gives (step ((mk (cfgOf .rv64 { noExt with m := true }) 4096 [(1,0xFFFFFFF9), (2,2)] [] 0 []).withFetchWord 32
      0x220E1BB)) 4100 [(3,0xFFFFFFFFFFFFFFFF)] [] 0 [] = true := by decide +kernel

theorem test_vector_A1 :
    gives (step ((mk (cfgOf .rv64 { noExt with a := true }) 4096 [(10,8192)] [] 0 [(8192,0), (8193,0), (8194,0),
      (8195,128), (8196,1), (8197,0), (8198,0), (8199,0)]).withFetchWord 32 0x100522AF)) 4100
      [(5,0xFFFFFFFF80000000)] [] 0 [] = true := by decide +kernel

theorem test_vector_A5 :
    gives (step ((mk (cfgOf .rv64 { noExt with a := true }) 4096 [(10,8192), (6,0x80000000)] [] 0 [(8192,0),
      (8193,0), (8194,0), (8195,128), (8196,1), (8197,0), (8198,0), (8199,0)]).withFetchWord 32 0x6522AF)) 4100
      [(5,0xFFFFFFFF80000000)] [] 0 [(8192,0), (8193,0), (8194,0), (8195,0)] = true := by decide +kernel

theorem test_vector_A12 :
    gives (step ((mk (cfgOf .rv32 { noExt with a := true }) 4096 [(10,8192), (6,1)] [] 0 [(8192,0), (8193,0),
      (8194,0), (8195,128), (8196,1), (8197,0), (8198,0), (8199,0)]).withFetchWord 32 0xC06522AF)) 4100
      [(5,0x80000000)] [] 0 [(8192,1), (8193,0), (8194,0), (8195,0)] = true := by decide +kernel

theorem test_vector_A18 :
    traps (step ((mk (cfgOf .rv32 { noExt with a := true }) 4096 [(10,8193)] [] 0 [(8192,0), (8193,0), (8194,0),
      (8195,128), (8196,1), (8197,0), (8198,0), (8199,0)]).withFetchWord 32 0x100522AF)) .loadAddrMisaligned 4096
      8193 = true := by decide +kernel

theorem test_vector_Z1 :
    gives (step ((mk (cfgOf .rv32 { noExt with f := true, zicsr := true, zicntr := true }) 4096 [(6,0xFFFFFFFF)] []
      33 []).withFetchWord 32 0x3312F3)) 4100 [(5,33)] [] 255 [] = true := by decide +kernel

theorem test_vector_Z5 :
    gives (step ((mk (cfgOf .rv32 { noExt with f := true, zicsr := true, zicntr := true }) 4096 [(6,224)] [] 255
      []).withFetchWord 32 0x3332F3)) 4100 [(5,255)] [] 31 [] = true := by decide +kernel

theorem test_vector_Z9 :
    gives (step ((mk (cfgOf .rv32 { noExt with f := true, zicsr := true, zicntr := true }) 4096 [] [] 0
      []).withFetchWord 32 0x22D073)) 4100 [] [] 160 [] = true := by decide +kernel

theorem test_vector_Z13 :
    traps (step ((mk (cfgOf .rv32 { noExt with f := true, zicsr := true, zicntr := true }) 4096 [] [] 0
      []).withFetchWord 32 0x7C0022F3)) .illegalInstruction 4096 0x7C0022F3 = true := by decide +kernel

theorem test_vector_K2 :
    gives (step ((mk (cfgOf .rv32 { noExt with f := true, zicsr := true }) 4096 [] [(1,0x7FC00000), (2,0x7FC00000)]
      0 []).withFetchWord 32 0xA020A2D3)) 4100 [(5,0)] [] 0 [] = true := by decide +kernel

theorem test_vector_K10 :
    gives (step ((mk (cfgOf .rv32 { noExt with f := true, zicsr := true }) 4096 [] [(1,0x80000000)] 0
      []).withFetchWord 32 0xE00092D3)) 4100 [(5,8)] [] 0 [] = true := by decide +kernel

theorem test_vector_K15 :
    gives (step ((mk (cfgOf .rv32 { noExt with f := true, zicsr := true }) 4096 [] [(1,0x7FC00000)] 0
      []).withFetchWord 32 0x201091D3)) 4100 [] [(3,0xFFC00000)] 0 [] = true := by decide +kernel

theorem test_vector_B1 :
    gives (step ((mk (cfgOf .rv32 { noExt with f := true, d := true, zicsr := true }) 4096 []
      [(1,0xFFFFFFFF3F800000), (2,0xFFFFFFFF40000000)] 0 []).withFetchWord 32 0x2081D3)) 4100 []
      [(3,0xFFFFFFFF40400000)] 0 [] = true := by decide +kernel

theorem test_vector_B4 :
    gives (step ((mk (cfgOf .rv32 { noExt with f := true, d := true, zicsr := true }) 4096 [(5,0x3F800000)] [] 0
      []).withFetchWord 32 0xF00280D3)) 4100 [] [(1,0xFFFFFFFF3F800000)] 0 [] = true := by decide +kernel

theorem test_vector_ZX3 :
    gives (step ((mk (cfgOf .rv64 { noExt with zfinx := true, zicsr := true }) 4096 [(6,0xDEADBEEF3F800000)] [] 0
      []).withFetchWord 32 0x206312D3)) 4100 [(5,0xFFFFFFFFBF800000)] [] 0 [] = true := by decide +kernel

theorem test_vector_ZX9 :
    traps (step ((mk (cfgOf .rv32 { noExt with zfinx := true, zicsr := true, zdinx := true }) 4096 [] [] 0
      []).withFetchWord 32 0x2F67553)) .illegalInstruction 4096 0x2F67553 = true := by decide +kernel

theorem test_vector_ZX15 :
    gives (step ((mk (cfgOf .rv32 { noExt with zfinx := true, zicsr := true, zdinx := true }) 4096 [(12,0),
      (13,0x3FF80000)] [] 0 []).withFetchWord 32 0x401675D3)) 4100 [(11,0x3FC00000)] [] 0 [] = true
      := by decide +kernel

theorem test_vector_F3 :
    gives (step ((mk (cfgOf .rv32 { noExt with f := true, d := true, q := true, zfh := true, zicsr := true }) 4096
      [] [(1,0xFFFFFFFFFFFFFFFFFFFFFFFF3F800000), (2,0xFFFFFFFFFFFFFFFFFFFFFFFF33800000)] 0 []).withFetchWord 32
      0x20B553)) 4100 [] [(10,0xFFFFFFFFFFFFFFFFFFFFFFFF3F800001)] 1 [] = true := by decide +kernel

theorem test_vector_F12 :
    gives (step ((mk (cfgOf .rv32 { noExt with f := true, d := true, q := true, zfh := true, zicsr := true }) 4096
      [] [(1,0xFFFFFFFFFFFFFFFFFFFFFFFF40400000), (2,0xFFFFFFFFFFFFFFFFFFFFFFFF3F800000)] 0 []).withFetchWord 32
      0x8208553)) 4100 [] [(10,0xFFFFFFFFFFFFFFFFFFFFFFFF40000000)] 0 [] = true := by decide +kernel

theorem test_vector_F22 :
    gives (step ((mk (cfgOf .rv32 { noExt with f := true, d := true, q := true, zfh := true, zicsr := true }) 4096
      [] [(1,0xFFFFFFFFFFFFFFFFFFFFFFFFBF800000)] 0 []).withFetchWord 32 0x58008553)) 4100 []
      [(10,0xFFFFFFFFFFFFFFFFFFFFFFFF7FC00000)] 16 [] = true := by decide +kernel

theorem test_vector_G4 :
    gives (step ((mk (cfgOf .rv32 { noExt with f := true, d := true, q := true, zfh := true, zicsr := true }) 4096
      [] [(1,0xFFFFFFFFFFFFFFFFFFFFFFFFBFC00000)] 0 []).withFetchWord 32 0xC0009553)) 4100 [(10,0xFFFFFFFF)] [] 1
      [] = true := by decide +kernel

theorem test_vector_G12 :
    gives (step ((mk (cfgOf .rv32 { noExt with f := true, d := true, q := true, zfh := true, zicsr := true }) 4096
      [] [(1,0xFFFFFFFFFFFFFFFFFFFFFFFF4F800000)] 0 []).withFetchWord 32 0xC0108553)) 4100 [(10,0xFFFFFFFF)] [] 16
      [] = true := by decide +kernel

theorem test_vector_D4 :
    gives (step ((mk (cfgOf .rv32 { noExt with f := true, d := true, q := true, zfh := true, zicsr := true }) 4096
      [] [(1,0xFFFFFFFFFFFFFFFF4000000000000000)] 0 []).withFetchWord 32 0x5A008553)) 4100 []
      [(10,0xFFFFFFFFFFFFFFFF3FF6A09E667F3BCD)] 1 [] = true := by decide +kernel

theorem test_vector_D12 :
    gives (step ((mk (cfgOf .rv32 { noExt with f := true, d := true, q := true, zfh := true, zicsr := true }) 4096
      [] [(1,0x7FFEFFFFFFFFFFFFFFFFFFFFFFFFFFFF), (2,0x40000000000000000000000000000000)] 0 []).withFetchWord 32
      0x16208553)) 4100 [] [(10,0x7FFF0000000000000000000000000000)] 5 [] = true := by decide +kernel

theorem test_vector_C5 :
    gives (step ((mk (cfgOf .rv32 { noExt with f := true, d := true, q := true, zfh := true, zicsr := true }) 4096
      [] [(1,0xFFFFFFFFFFFFFFFF3FF0000010000000)] 0 []).withFetchWord 32 0x4010B553)) 4100 []
      [(10,0xFFFFFFFFFFFFFFFFFFFFFFFF3F800001)] 1 [] = true := by decide +kernel

theorem test_vector_C12 :
    gives (step ((mk (cfgOf .rv32 { noExt with f := true, d := true, q := true, zfh := true, zicsr := true }) 4096
      [] [(1,0xFFFFFFFFFFFFFFFFFFFFFFFFFFFF3C00)] 0 []).withFetchWord 32 0x40208553)) 4100 []
      [(10,0xFFFFFFFFFFFFFFFFFFFFFFFF3F800000)] 0 [] = true := by decide +kernel

theorem test_vector_V3 :
    gives (step ((mk (cfgOf .rv32 { noExt with f := true, d := true, q := true, zfh := true, zicsr := true }) 4096
      [] [(1,0xFFFFFFFFFFFFFFFF41DFFFFFFFE00000)] 0 []).withFetchWord 32 0xC2009553)) 4100 [(10,0x7FFFFFFF)] [] 1
      [] = true := by decide +kernel

theorem test_vector_V9 :
    gives (step ((mk (cfgOf .rv32 { noExt with f := true, d := true, q := true, zfh := true, zicsr := true }) 4096
      [] [(1,0xC01E0000000000000000000000000000)] 0 []).withFetchWord 32 0xC6008553)) 4100 [(10,0x80000000)] [] 0
      [] = true := by decide +kernel

theorem test_vector_MM4 :
    gives (step ((mk (cfgOf .rv32 { noExt with f := true, d := true, q := true, zfh := true, zicsr := true }) 4096
      [] [(1,0xFFFFFFFFFFFFFFFFFFFFFFFF7F800001), (2,0xFFFFFFFFFFFFFFFFFFFFFFFF3F800000)] 0 []).withFetchWord 32
      0x28208553)) 4100 [] [(10,0xFFFFFFFFFFFFFFFFFFFFFFFF3F800000)] 16 [] = true := by decide +kernel

theorem test_vector_FM6 :
    gives (step ((mk (cfgOf .rv32 { noExt with f := true, d := true, q := true, zfh := true, zicsr := true }) 4096
      [] [(1,0xFFFFFFFFFFFFFFFFFFFFFFFF7F800000), (2,0xFFFFFFFFFFFFFFFFFFFFFFFF00000000),
      (3,0xFFFFFFFFFFFFFFFFFFFFFFFF7FC00000)] 0 []).withFetchWord 32 0x18208543)) 4100 []
      [(10,0xFFFFFFFFFFFFFFFFFFFFFFFF7FC00000)] 16 [] = true := by decide +kernel

theorem test_vector_FM14 :
    gives (step ((mk (cfgOf .rv32 { noExt with f := true, d := true, q := true, zfh := true, zicsr := true }) 4096
      [] [(1,0xFFFFFFFFFFFFFFFFFFFFFFFF00800001), (2,0xFFFFFFFFFFFFFFFFFFFFFFFF3F000000),
      (3,0xFFFFFFFFFFFFFFFFFFFFFFFF00000000)] 0 []).withFetchWord 32 0x18208543)) 4100 []
      [(10,0xFFFFFFFFFFFFFFFFFFFFFFFF00400000)] 3 [] = true := by decide +kernel

/-! ### Witnesses -/

/-- RV64 with every extension; x8 and x10 point at 0x2000, the bytes there are 80 81 82 83 84 85 86 F7. -/
def demo : State :=
  mk Config.reset 0x1000 [(1, 7), (2, 0x3000), (5, 2 ^ 64 - 5), (6, 0x1003), (8, 0x2000), (9, 2 ^ 64 - 4), (10, 0x2000)]
    [(1, 2 ^ 128 - 2 ^ 32 + 0x3F800000), (2, 2 ^ 128 - 2 ^ 32 + 0xBF800000), (3, 0x3F800000), (4, 2 ^ 128 - 2 ^ 32 + 1)] 0
    [(0x2000, 0x80), (0x2001, 0x81), (0x2002, 0x82), (0x2003, 0x83), (0x2004, 0x84), (0x2005, 0x85), (0x2006, 0x86),
      (0x2007, 0xF7)]

/-- The same registers without the C extension. -/
def demoNoC : State := { demo with cfg := cfgOf .rv64 { noExt with f := true, zicsr := true } }

/-- x8 at the last word of main memory, x9 at a device, x10 in read-only memory, x11 in a hole. -/
def mixed : State := mk mixedCfg 0x1000 [(8, 0x2FFC), (9, 0x4001), (10, 0x5000), (11, 0x3000)] [] 0 []

theorem witness_RegisterRegisterResult :
    Obligations.RegisterRegisterResult → ∃ t, exec (.add 3 1 5) demo = .next t ∧ readX 3 t = 2 := by
  intro h
  obtain ⟨t, h1, _, h2, _⟩ := h demo 3 1 5 (.add 3 1 5) _ (.head _)
  exact ⟨t, h1, h2.trans (by decide +kernel)⟩

theorem witness_RegisterRegisterResult_x0 :
    Obligations.RegisterRegisterResult → ∃ t, exec (.add 0 1 5) demo = .next t ∧ readX 0 t = 0 := by
  intro h
  obtain ⟨t, h1, _, h2, _⟩ := h demo 0 1 5 (.add 0 1 5) _ (.head _)
  exact ⟨t, h1, h2.trans (by decide +kernel)⟩

theorem witness_RegisterImmediateResult :
    Obligations.RegisterImmediateResult → ∃ t, exec (.addi 3 1 0x800) demo = .next t ∧ readX 3 t = -2041 := by
  intro h
  obtain ⟨t, h1, _, h2, _⟩ := h demo 3 1 0x800 0 (.addi 3 1 0x800) _ _ (.head _)
  exact ⟨t, h1, h2.trans (by decide +kernel)⟩

theorem witness_UpperImmediateResult :
    Obligations.UpperImmediateResult → ∃ t, exec (.lui 3 0x80000) demo = .next t ∧ readX 3 t = 0xFFFFFFFF80000000 := by
  intro h
  obtain ⟨t, h1, _, h2, _⟩ := h demo 3 0x80000 (.lui 3 0x80000) _ (.head _)
  exact ⟨t, h1, h2.trans (by decide +kernel)⟩

theorem witness_WordResult :
    Obligations.WordResult → ∃ t, exec (.addiw 3 5 1) demo = .next t ∧ readX 3 t = -4 := by
  intro h
  obtain ⟨t, h1, _, h2, _⟩ := h demo 3 5 0 1 0 (.addiw 3 5 1) _ _ (by decide +kernel) (.head _)
  exact ⟨t, h1, h2.trans (by decide +kernel)⟩

theorem witness_MultiplyDivideResult :
    Obligations.MultiplyDivideResult → ∃ t, exec (.mul 3 1 5) demo = .next t ∧ readX 3 t = -35 := by
  intro h
  obtain ⟨t, h1, _, h2, _⟩ := h demo 3 1 5 (.mul 3 1 5) _ (.head _)
  exact ⟨t, h1, h2.trans (by decide +kernel)⟩

theorem witness_WordMultiplyDivideResult :
    Obligations.WordMultiplyDivideResult → ∃ t, exec (.mulw 3 1 5) demo = .next t ∧ readX 3 t = -35 := by
  intro h
  obtain ⟨t, h1, _, h2, _⟩ := h demo 3 1 5 (.mulw 3 1 5) _ (by decide +kernel) (.head _)
  exact ⟨t, h1, h2.trans (by decide +kernel)⟩

theorem witness_DivisionCorners_zero :
    Obligations.DivisionCorners → ∃ t, exec (.divu 3 1 0) demo = .next t ∧ readX 3 t = BitVec.allOnes 64 := by
  intro h
  obtain ⟨⟨t, h1, _, h2⟩, _⟩ := h demo 3 1 0 (.divu 3 1 0) _ (.inl ⟨by decide +kernel, .head _⟩)
  exact ⟨t, h1, h2.trans (by decide +kernel)⟩

/-- x12 the least integer, x13 all ones, x14 the least 32-bit integer. -/
def corners : State := mk Config.reset 0x1000 [(12, 2 ^ 63), (13, 2 ^ 64 - 1), (14, 2 ^ 31)] [] 0 []

theorem witness_DivisionCorners_overflow :
    Obligations.DivisionCorners → ∃ t, exec (.div 3 12 13) corners = .next t ∧ readX 3 t = 0x8000000000000000 := by
  intro h
  obtain ⟨⟨t, h1, _, h2⟩, _⟩ :=
    h corners 3 12 13 (.div 3 12 13) _ (.inr (.inl ⟨by decide +kernel, by decide +kernel, .head _⟩))
  exact ⟨t, h1, h2.trans (by decide +kernel)⟩

theorem witness_DivisionCorners_zero_word :
    Obligations.DivisionCorners → ∃ t, exec (.divuw 3 13 12) corners = .next t ∧ readX 3 t = BitVec.allOnes 64 := by
  intro h
  obtain ⟨⟨t, h1, _, h2⟩, _⟩ :=
    h corners 3 13 12 (.divuw 3 13 12) _ (.inr (.inr (.inl ⟨by decide +kernel, by decide +kernel, .head _⟩)))
  exact ⟨t, h1, h2.trans (by decide +kernel)⟩

theorem witness_DivisionCorners_overflow_word :
    Obligations.DivisionCorners → ∃ t, exec (.divw 3 14 13) corners = .next t ∧ readX 3 t = 0xFFFFFFFF80000000 := by
  intro h
  obtain ⟨⟨t, h1, _, h2⟩, _⟩ :=
    h corners 3 14 13 (.divw 3 14 13) _
      (.inr (.inr (.inr ⟨by decide +kernel, by decide +kernel, by decide +kernel, .head _⟩)))
  exact ⟨t, h1, h2.trans (by decide +kernel)⟩

theorem witness_JumpResult :
    Obligations.JumpResult → ∃ t, exec (.jal 1 0x80000) demo = .next t ∧ readX 1 t = 0x1004 := by
  intro h
  obtain ⟨t, h1, _, h2, _⟩ := (h demo 1 0 0x80000 0 0 (.jal 1 0x80000) 4 1 _ (.head _)).1 (by decide +kernel)
  exact ⟨t, h1, h2.trans (by decide +kernel)⟩

theorem witness_JumpResult_misaligned :
    Obligations.JumpResult → exec (.jal 1 1) demoNoC = .next (trapped .instrAddrMisaligned 0x1002 demoNoC) :=
  fun h => (h demoNoC 1 0 1 0 0 (.jal 1 1) 4 1 _ (.head _)).2 (by decide +kernel)

theorem witness_BranchResult_not_taken :
    Obligations.BranchResult → ∃ t, exec (.beq 1 5 1) demo = .next t ∧ t.pc = 0x1004 := by
  intro h
  obtain ⟨t, h1, ⟨h2, _⟩, _⟩ := (h demo 1 5 0 1 0 (.beq 1 5 1) 4 _ _ (.head _)).1 (by decide +kernel)
  exact ⟨t, h1, h2.trans (by decide +kernel)⟩

theorem witness_BranchResult_taken :
    Obligations.BranchResult → ∃ t, exec (.beq 1 1 0xFFF) demo = .next t ∧ t.pc = 0xFFE := by
  intro h
  obtain ⟨t, h1, ⟨h2, _⟩, _⟩ :=
    (h demo 1 1 0 0xFFF 0 (.beq 1 1 0xFFF) 4 _ _ (.head _)).2.1 (by decide +kernel) (by decide +kernel)
  exact ⟨t, h1, h2.trans (by decide +kernel)⟩

theorem witness_BranchResult_misaligned :
    Obligations.BranchResult → exec (.beq 1 1 0xFFF) demoNoC = .next (trapped .instrAddrMisaligned 0xFFE demoNoC) :=
  fun h => (h demoNoC 1 1 0 0xFFF 0 (.beq 1 1 0xFFF) 4 _ _ (.head _)).2.2 (by decide +kernel) (by decide +kernel)

theorem witness_NoMisalignedTargetWithC :
    Obligations.NoMisalignedTargetWithC → Exn.breakpoint ≠ .instrAddrMisaligned :=
  fun h => h .ebreak demo _ _ (by decide +kernel) (by decide +kernel) (by decide +kernel) rfl rfl

/-! An access that is granted, one that wraps round the address space, and one refused at its last byte. -/

theorem granted_load : accessGranted demo.cfg .load (effAddr 8 0 demo) 8 := by unfold accessGranted; decide +kernel
theorem granted_load_wrapping : accessGranted demo.cfg .load (effAddr 9 0 demo) 8 := by
  unfold accessGranted; decide +kernel
theorem granted_store : accessGranted demo.cfg .store (effAddr 8 0 demo) 8 := by unfold accessGranted; decide +kernel
theorem granted_lr : accessGranted demo.cfg .lr (effAddr 8 0 demo) 4 := by unfold accessGranted; decide +kernel
theorem granted_sc : accessGranted demo.cfg .sc (effAddr 8 0 demo) 4 := by unfold accessGranted; decide +kernel
theorem granted_amo : accessGranted demo.cfg (.amo .swap) (effAddr 8 0 demo) 4 := by
  unfold accessGranted; decide +kernel
theorem refused_load : accessCheck mixed.cfg .load (effAddr 8 0 mixed) 8 = some .loadAccessFault := by decide +kernel
theorem refused_store : accessCheck mixed.cfg .store (effAddr 10 0 mixed) 1 = some .storeAccessFault := by
  decide +kernel
theorem refused_lr : accessCheck mixed.cfg .lr (effAddr 9 0 mixed) 4 = some .loadAddrMisaligned := by decide +kernel
theorem refused_sc : accessCheck mixed.cfg .sc (effAddr 11 0 mixed) 4 = some .storeAccessFault := by decide +kernel
theorem refused_amo : accessCheck mixed.cfg (.amo .swap) (effAddr 9 0 mixed) 4 = some .storeAddrMisaligned := by
  decide +kernel

theorem witness_IntegerLoadResult :
    Obligations.IntegerLoadResult → ∃ t, exec (.ld 3 8 0) demo = .next t := by
  intro h
  obtain ⟨t, _, h1, _⟩ :=
    (h demo 3 8 0 0 0 0 0 (.ld 3 8 0) 4 8 .signed 3 8 _ (.tail _ (.tail _ (.tail _ (.head _))))).1 granted_load
  exact ⟨t, h1⟩

theorem witness_IntegerLoadResult_wrapping :
    Obligations.IntegerLoadResult → ∃ t, exec (.ld 3 9 0) demo = .next t := by
  intro h
  obtain ⟨t, _, h1, _⟩ :=
    (h demo 3 9 0 0 0 0 0 (.ld 3 9 0) 4 8 .signed 3 9 _ (.tail _ (.tail _ (.tail _ (.head _))))).1
      granted_load_wrapping
  exact ⟨t, h1⟩

theorem witness_IntegerLoadResult_refused :
    Obligations.IntegerLoadResult → exec (.ld 3 8 0) mixed = .next (trapped .loadAccessFault 0x2FFC mixed) :=
  fun h => (h mixed 3 8 0 0 0 0 0 (.ld 3 8 0) 4 8 .signed 3 8 _ (.tail _ (.tail _ (.tail _ (.head _))))).2 _
    refused_load

/-- The byte at x9 is a device's: the load is delivered to it. -/
theorem witness_IntegerLoadResult_device :
    Obligations.IntegerLoadResult → ∃ t, exec (.lb 3 9 0) mixed = .next t ∧
      t.io = [.read [(0x4001, Config.ioRead 0x4001 0)]] := by
  intro h
  obtain ⟨t, _, h1, h2, _⟩ := (h mixed 3 9 0 0 0 0 0 _ 4 1 .signed 3 9 _ (.head _)).1
    (by unfold accessGranted; decide +kernel)
  exact ⟨t, h1, (h2.1 (by unfold Single; decide +kernel)).2.1.2.2.trans rfl⟩

/-- The demo state on a platform with Zam whose agent writes memory; x9 is four bytes below the top of memory. -/
def agentDemo : State :=
  { demo with cfg := { Config.reset with agentWrites := true, ext := { Config.resetExt with zam := true } } }

/-- A misaligned load is its eight bytes, in some order. -/
theorem witness_IntegerLoadResult_misaligned :
    Obligations.IntegerLoadResult → ∃ t, ∃ v : BitVec 64, exec (.ld 3 9 0) agentDemo = .next t ∧
      ∃ parts, (∀ p ∈ parts, p.length = 1) ∧ ReadInParts (effAddr 9 0 agentDemo) 8 v 0 parts agentDemo t := by
  intro h
  obtain ⟨t, v, h1, h2, _⟩ :=
    (h agentDemo 3 9 0 0 0 0 0 (.ld 3 9 0) 4 8 .signed 3 9 _ (.tail _ (.tail _ (.tail _ (.head _))))).1
      (by unfold accessGranted; decide +kernel)
  obtain ⟨parts, h3, h4⟩ := h2.2.1 (by unfold Single; decide +kernel)
  exact ⟨t, v, h1, parts, h3.2.2 (by decide +kernel), h4⟩

/-- On a platform whose agent does not write, it has the bytes that are there. -/
theorem witness_IntegerLoadResult_silent :
    Obligations.IntegerLoadResult → ∃ t, exec (.ld 3 9 0) demo = .next t ∧ t.stale = demo.stale := by
  intro h
  obtain ⟨t, _, h1, h2, _⟩ :=
    (h demo 3 9 0 0 0 0 0 (.ld 3 9 0) 4 8 .signed 3 9 _ (.tail _ (.tail _ (.tail _ (.head _))))).1
      granted_load_wrapping
  exact ⟨t, h1, (h2.2.2 rfl).2.2.1⟩

theorem witness_IntegerStoreResult :
    Obligations.IntegerStoreResult → ∃ t, exec (.sd 1 8 0) demo = .next t ∧ t.io = demo.io := by
  intro h
  obtain ⟨t, h1, _, h2, _⟩ :=
    (h demo 1 8 0 0 0 0 0 (.sd 1 8 0) 4 8 1 8 _ (.tail _ (.tail _ (.tail _ (.head _))))).1 granted_store
  exact ⟨t, h1, (h2.1 (by unfold Single; decide +kernel)).2.1.trans (by decide +kernel)⟩

theorem witness_IntegerStoreResult_misaligned :
    Obligations.IntegerStoreResult → ∃ t, exec (.sd 1 9 0) agentDemo = .next t ∧
      ∃ parts, (∀ p ∈ parts, p.length = 1) ∧
        StoredInParts (effAddr 9 0 agentDemo) 8 (readX 1 agentDemo) 0 parts agentDemo t := by
  intro h
  obtain ⟨t, h1, _, h2, _⟩ :=
    (h agentDemo 1 9 0 0 0 0 0 (.sd 1 9 0) 4 8 1 9 _ (.tail _ (.tail _ (.tail _ (.head _))))).1
      (by unfold accessGranted; decide +kernel)
  obtain ⟨parts, h3, h4⟩ := h2.2.1 (by unfold Single; decide +kernel)
  exact ⟨t, h1, parts, h3.2.2 (by decide +kernel), h4⟩

theorem witness_IntegerStoreResult_silent :
    Obligations.IntegerStoreResult → ∃ t, exec (.sd 1 9 0) demo = .next t ∧ KeptReservation demo t := by
  intro h
  obtain ⟨t, h1, _, h2, _⟩ :=
    (h demo 1 9 0 0 0 0 0 (.sd 1 9 0) 4 8 1 9 _ (.tail _ (.tail _ (.tail _ (.head _))))).1
      (by unfold accessGranted; decide +kernel)
  exact ⟨t, h1, (h2.2.2 rfl).2⟩

theorem witness_IntegerStoreResult_refused :
    Obligations.IntegerStoreResult → exec (.sb 1 10 0) mixed = .next (trapped .storeAccessFault 0x5000 mixed) :=
  fun h => (h mixed 1 10 0 0 0 0 0 (.sb 1 10 0) 4 1 1 10 _ (.head _)).2 _ refused_store

theorem witness_IntegerStoreResult_device :
    Obligations.IntegerStoreResult → ∃ t, exec (.sb 9 9 0) mixed = .next t ∧ t.io = [.write [(0x4001, 0x01)]] := by
  intro h
  obtain ⟨t, h1, _, h2, _⟩ := (h mixed 9 9 0 0 0 0 0 _ 4 1 9 9 _ (.head _)).1
    (by unfold accessGranted; decide +kernel)
  exact ⟨t, h1, (h2.1 (by unfold Single; decide +kernel)).2.1.trans (by decide +kernel)⟩

theorem witness_FloatLoadResult :
    Obligations.FloatLoadResult → ∃ t, exec (.fld 3 8 0) demo = .next t := by
  intro h
  obtain ⟨t, _, h1, _⟩ :=
    (h demo 3 8 0 0 0 0 0 (.fld 3 8 0) 4 .d 3 8 _ (by decide +kernel) (.tail _ (.tail _ (.head _)))).1 granted_load
  exact ⟨t, h1⟩

/-- RV32 with D: an aligned FLD or FSD is wider than XLEN. -/
def wide : State := mk (cfgOf .rv32 { noExt with f := true, d := true, zicsr := true }) 0x1000 [(8, 0x2000)] [] 0 []

theorem witness_FloatLoadResult_wide :
    Obligations.FloatLoadResult → ∃ t, exec (.fld 3 8 0) wide = .next t ∧
      ∃ parts, MayBeParts wide.cfg (effAddr 8 0 wide) 8 parts := by
  intro h
  obtain ⟨t, _, h1, h2, _⟩ :=
    (h wide 3 8 0 0 0 0 0 (.fld 3 8 0) 4 .d 3 8 _ (by decide +kernel) (.tail _ (.tail _ (.head _)))).1
      (by unfold accessGranted; decide +kernel)
  obtain ⟨parts, h3, _⟩ := h2.2.1 (by unfold Single; decide +kernel)
  exact ⟨t, h1, parts, h3⟩

theorem witness_FloatStoreResult_wide :
    Obligations.FloatStoreResult → ∃ t, exec (.fsd 1 8 0) wide = .next t ∧
      ∃ parts, MayBeParts wide.cfg (effAddr 8 0 wide) 8 parts := by
  intro h
  obtain ⟨t, h1, _, h2, _⟩ :=
    (h wide 1 8 0 0 0 0 0 (.fsd 1 8 0) 4 8 1 8 _ (.tail _ (.tail _ (.head _)))).1
      (by unfold accessGranted; decide +kernel)
  obtain ⟨parts, h3, _⟩ := h2.2.1 (by unfold Single; decide +kernel)
  exact ⟨t, h1, parts, h3⟩

theorem witness_FloatLoadResult_refused :
    Obligations.FloatLoadResult → exec (.fld 3 8 0) mixed = .next (trapped .loadAccessFault 0x2FFC mixed) :=
  fun h => (h mixed 3 8 0 0 0 0 0 (.fld 3 8 0) 4 .d 3 8 _ (by decide +kernel) (.tail _ (.tail _ (.head _)))).2 _
    refused_load

theorem witness_FloatStoreResult :
    Obligations.FloatStoreResult → ∃ t, exec (.fsd 1 8 0) demo = .next t := by
  intro h
  obtain ⟨t, h1, _⟩ :=
    (h demo 1 8 0 0 0 0 0 (.fsd 1 8 0) 4 8 1 8 _ (.tail _ (.tail _ (.head _)))).1 granted_store
  exact ⟨t, h1⟩

theorem witness_FloatStoreResult_refused :
    Obligations.FloatStoreResult → exec (.fsh 1 10 0) mixed = .next (trapped .storeAccessFault 0x5000 mixed) :=
  fun h => (h mixed 1 10 0 0 0 0 0 (.fsh 1 10 0) 4 2 1 10 _ (.head _)).2 _ (by decide +kernel)

theorem witness_AccessExceptions_vacant :
    Obligations.AccessExceptions → accessCheck mixedCfg .load 0x3000 1 = some .loadAccessFault :=
  fun h => (h mixedCfg .load 0x3000 1 (by decide)).1 (by decide +kernel)

theorem witness_AccessExceptions_misaligned :
    Obligations.AccessExceptions → accessCheck mixedCfg .load 0x4001 2 = some .loadAddrMisaligned :=
  fun h => (h mixedCfg .load 0x4001 2 (by decide)).2.1 _ rfl (by decide +kernel) (by decide +kernel)

theorem witness_AccessExceptions_misaligned_fault :
    Obligations.AccessExceptions → accessCheck mixedCfg .store 0x4001 2 = some .storeAccessFault :=
  fun h => (h mixedCfg .store 0x4001 2 (by decide)).2.2.1 _ rfl (by decide +kernel) (by decide +kernel)

theorem witness_AccessExceptions_permission :
    Obligations.AccessExceptions → accessCheck mixedCfg .load 0x2FFC 8 = some .loadAccessFault :=
  fun h => (h mixedCfg .load 0x2FFC 8 (by decide)).2.2.2.1 _ rfl (.inr (by decide +kernel))
    ⟨4, by decide, by decide +kernel⟩

theorem witness_AccessExceptions_aligned :
    Obligations.AccessExceptions → accessCheck mixedCfg .load 0x5000 8 ≠ some .loadAddrMisaligned :=
  fun h => (h mixedCfg .load 0x5000 8 (by decide)).2.2.2.2.1 (by decide +kernel)

theorem witness_StoreThenLoad :
    Obligations.StoreThenLoad → ∃ t u, exec (.sb 5 9 0) demo = .next t ∧ exec (.lb 3 9 0) t = .next u ∧
      readX 3 u = -5 := by
  intro h
  obtain ⟨t, u, h1, h2, h3⟩ := h demo 5 9 3 0 _ _ _ (.head _) (by unfold accessGranted; decide +kernel)
    (by unfold accessGranted; decide +kernel) (by unfold NoDevice; decide +kernel) (.inl rfl)
  exact ⟨t, u, h1, h2, h3.trans (by decide +kernel)⟩

theorem witness_StoreThenLoad_single :
    Obligations.StoreThenLoad → ∃ t u, exec (.sb 5 9 0) agentDemo = .next t ∧ exec (.lb 3 9 0) t = .next u ∧
      readX 3 u = -5 := by
  intro h
  obtain ⟨t, u, h1, h2, h3⟩ := h agentDemo 5 9 3 0 _ _ _ (.head _) (by unfold accessGranted; decide +kernel)
    (by unfold accessGranted; decide +kernel) (by unfold NoDevice; decide +kernel)
    (.inr (by unfold Single; decide +kernel))
  exact ⟨t, u, h1, h2, h3.trans (by decide +kernel)⟩

theorem witness_LoadReservedResult :
    Obligations.LoadReservedResult → ∃ t, exec (.lrW 3 8 0 0) demo = .next t := by
  intro h
  obtain ⟨t, _, _, h1, _⟩ := (h demo 3 8 0 0 _ 4 (.head _)).1 granted_lr
  exact ⟨t, h1⟩

theorem witness_LoadReservedResult_refused :
    Obligations.LoadReservedResult → exec (.lrW 3 9 0 0) mixed = .next (trapped .loadAddrMisaligned 0x4001 mixed) :=
  fun h => (h mixed 3 9 0 0 _ 4 (.head _)).2 _ refused_lr

/-- A configuration whose RSET(0x2000, 4) is two blocks. -/
def twoBlocks : State :=
  { demo with cfg := { Config.reset with rset := [⟨0x2000, 4, [⟨0x2000, 4⟩, ⟨0x8000, 16⟩]⟩] } }

theorem witness_LoadReservedResult_rset :
    Obligations.LoadReservedResult → ∃ t r, exec (.lrW 3 8 0 0) twoBlocks = .next t ∧ t.reservation = some r ∧
      inReservation r 0x800F = true ∧ inReservation r 0x8010 ≠ true := by
  intro h
  obtain ⟨t, _, r, h1, _, _, _, h2, _, _, _, h3, _⟩ := (h twoBlocks 3 8 0 0 _ 4 (.head _)).1
    (by unfold accessGranted; decide +kernel)
  have hb := h3 ⟨0x2000, 4, [⟨0x2000, 4⟩, ⟨0x8000, 16⟩]⟩ (by decide +kernel)
  refine ⟨t, r, h1, h2, (hb 0x800F).2 (.inl ⟨⟨0x8000, 16⟩, by decide, by decide, by decide⟩), fun hc => ?_⟩
  exact absurd ((hb 0x8010).1 hc) (by decide +kernel)

theorem witness_LoadReservedResult_granule :
    Obligations.LoadReservedResult → ∃ t r, exec (.lrW 3 8 0 0) demo = .next t ∧ t.reservation = some r ∧
      (inReservation r 0x203F = true ↔ 0x203F / 2 ^ 6 = 0x2000 / 2 ^ 6) := by
  intro h
  obtain ⟨t, _, r, h1, _, _, _, h2, _, _, _, _, h3, _⟩ := (h demo 3 8 0 0 _ 4 (.head _)).1 granted_lr
  exact ⟨t, r, h1, h2, h3 (by decide +kernel) 0x203F⟩

/-- The state after an LR. -/
def reserved : State := { demo with reservation := some (reservationFor demo.cfg 0x2000 4) }

/-- The state before the SC of a constrained loop that has failed so often. -/
def looped (failures : Nat) : State :=
  { reserved with watch := some { since := 0, lrPc := 0xFF8, lrAddr := 0x2000, lrLen := 4, code := [(0xFFC, 4), (0xFF8, 4)],
                                  last := 0xFFC, retrying := false, failures := failures } }

theorem reserved_demo : ∀ j, j < 4 →
    inReservation (reservationFor demo.cfg 0x2000 4) (byteAddr demo.cfg (effAddr 8 0 demo) j) = true := by
  decide +kernel

theorem reserved_looped (k : Nat) : Reserved (looped k) (effAddr 8 0 (looped k)) 4 := ⟨_, rfl, reserved_demo⟩

theorem owed_looped : scOwed (effAddr 8 0 (looped (Config.scPatience 0 + 1))) 4 (looped (Config.scPatience 0 + 1)) = true := by
  have h : scConstrained (effAddr 8 0 (looped (Config.scPatience 0 + 1))) 4 (looped (Config.scPatience 0 + 1))
      { since := 0, lrPc := 0xFF8, lrAddr := 0x2000, lrLen := 4, code := [(0xFFC, 4), (0xFF8, 4)], last := 0xFFC,
        retrying := false, failures := Config.scPatience 0 + 1 } = true := by decide +kernel
  simp only [scOwed]
  exact (Option.any_some ..).trans (by rw [h]; simp)

theorem witness_StoreConditionalResult :
    Obligations.StoreConditionalResult → ∃ t, exec (.scW 3 8 1 0 0) demo = .next t ∧ readX 3 t = 1 := by
  intro h
  obtain ⟨t, h1, _, _, _, _, _, _, h2⟩ := (h demo 3 8 1 0 0 _ 4 (.head _)).1 granted_sc
  refine ⟨t, h1, (h2 ?_).1.trans (by decide +kernel)⟩
  rintro ⟨⟨r, hr, _⟩, _⟩
  cases hr

/-- Under a covering reservation, in a loop that is owed success. -/
theorem witness_StoreConditionalResult_reserved :
    Obligations.StoreConditionalResult → ∃ t, exec (.scW 3 8 1 0 0) (looped (Config.scPatience 0 + 1)) = .next t ∧
      readX 3 t = 0 := by
  intro h
  obtain ⟨t, h1, _, _, _, _, _, h2, _⟩ := (h (looped (Config.scPatience 0 + 1)) 3 8 1 0 0 _ 4 (.head _)).1 granted_sc
  exact ⟨t, h1, (h2 (reserved_looped _) (.inr owed_looped)).1⟩

theorem witness_StoreConditionalResult_refused :
    Obligations.StoreConditionalResult → exec (.scW 3 11 1 0 0) mixed = .next (trapped .storeAccessFault 0x3000 mixed) :=
  fun h => (h mixed 3 11 1 0 0 _ 4 (.head _)).2 _ refused_sc

theorem witness_ConstrainedLoopSucceeds :
    Obligations.ConstrainedLoopSucceeds → ∃ t, exec (.scW 3 8 1 0 0) (looped (Config.scPatience 0 + 1)) = .next t ∧
      readX 3 t = 0 := by
  intro h
  obtain ⟨t, h1, h2⟩ := h.1 (looped (Config.scPatience 0 + 1)) 3 8 1 0 0 _ 4 _ (.head _) granted_sc (reserved_looped _)
    rfl rfl (by decide +kernel) rfl (by unfold NoDevice; decide +kernel) ⟨(0xFF8, 4), by decide +kernel, by decide +kernel⟩
  refine ⟨t, h1, ?_⟩
  rcases h2 with h2 | h2
  · exact h2.1
  · exact absurd h2.1 (Nat.not_succ_le_self _)

theorem witness_ConstrainedLoopSucceeds_body :
    Obligations.ConstrainedLoopSucceeds → ((observe (.lui 5 1) (looped 0)).watch).isSome = true := by
  intro h
  rw [h.2.1 (looped 0) _ (.lui 5 1) 4 5 0 0 0 0 1 0 0 0 0 0 (.head _) rfl (.inr ⟨4, by decide +kernel, by decide +kernel, by decide +kernel⟩)]
  rfl

/-- A loop whose LR is the last instruction of the address space. -/
def aroundLoop : LoopWatch :=
  { since := 0, lrPc := 2 ^ 64 - 4, lrAddr := 0x2000, lrLen := 4, code := [(2 ^ 64 - 4, 4)], last := 2 ^ 64 - 4,
    retrying := false, failures := 3 }

/-- In that loop after its LR, at address 0, which is in an I/O region. -/
def around : State :=
  { reserved with
    pc := 0
    cfg := { Config.reset with regions := [
      { Config.resetRegion with size := 0x1000, kind := .io },
      { Config.resetRegion with base := 0x1000, size := 2 ^ 64 - 0x1000 }] }
    watch := some aroundLoop }

theorem witness_ConstrainedLoopSucceeds_around :
    Obligations.ConstrainedLoopSucceeds → ((observe (.lui 5 1) around).watch).isSome = true := by
  intro h
  rw [h.2.1 around _ (.lui 5 1) 4 5 0 0 0 0 1 0 0 0 0 0 (.head _) rfl
    (.inr ⟨4, by decide +kernel, by decide +kernel, by decide +kernel⟩)]
  rfl

/-- A loop across the top of the address space, partly in an I/O region, is one as long as its instructions follow one
another. -/
theorem test_loop_around :
    (observe (.scW 3 8 1 0 0) around).watch = some (watchRun 0 4 aroundLoop) ∧
      scConstrained 0x2000 4 around (watchRun 0 4 aroundLoop) = true := by
  refine ⟨by decide +kernel, ?_⟩
  have h : loopFits around (watchRun 0 4 aroundLoop) = true :=
    loopFits_eq_true.2 ⟨(2 ^ 64 - 4, 4), by decide +kernel, by decide +kernel⟩
  simp only [scConstrained, h]
  decide +kernel

/-- An SC more than 16 instructions after the LR ends no sequence of a constrained loop. -/
theorem test_loop_too_long :
    ((observe (.scW 3 8 1 0 0) { looped 3 with pc := 0x2000 }).watch.map (scConstrained 0x2000 4 (looped 3))) =
      some false := by decide +kernel

/-- The same loop when the code to retry has led back to its LR. -/
def again : State :=
  { looped 0 with watch := some { since := 0, lrPc := 0x1000, lrAddr := 0x2000, lrLen := 4, code := [(0x100C, 4), (0x1000, 4)],
                                  last := 0x100C, retrying := true, failures := 2 } }

theorem witness_ConstrainedLoopSucceeds_again :
    Obligations.ConstrainedLoopSucceeds → ∃ v, (observe (.lrW 3 8 0 0) again).watch = some v ∧ v.failures = 2 := by
  intro h
  obtain ⟨v, h1, _, h2, _⟩ := h.2.2.1 again _ 3 8 0 0 _ 4 (.head _) rfl rfl (by decide +kernel)
  exact ⟨v, h1, h2⟩

theorem witness_AmoResult :
    Obligations.AmoResult → ∃ t, exec (.amoswapW 3 8 1 0 0) demo = .next t := by
  intro h
  obtain ⟨t, _, h1, _⟩ := (h demo 3 8 1 0 0 _ 4 .swap _ (.head _)).1 granted_amo
  exact ⟨t, h1⟩

/-- A misaligned AMO under Zam: each half is its four bytes, in some order. -/
theorem witness_AmoResult_misaligned :
    Obligations.AmoResult → ∃ t u, exec (.amoswapW 3 6 1 0 0) agentDemo = .next t ∧
      ∃ writes, (∀ p ∈ writes, p.length = 1) ∧
        StoredInParts (effAddr 6 0 agentDemo) 4 ((readX 1 agentDemo).setWidth 32) 4 writes u t := by
  intro h
  obtain ⟨t, _, h1, _, _, h2, _⟩ := (h agentDemo 3 6 1 0 0 _ 4 .swap _ (.head _)).1
    (by unfold accessGranted; decide +kernel)
  obtain ⟨u, _, writes, _, h3, _, _, _, h4⟩ := h2.2.1 (by unfold Single; decide +kernel)
  exact ⟨t, u, h1, writes, h3.2.2 (by decide +kernel), h4⟩

/-- An aligned AMO is indivisible, also where the agent writes; and one without the agent. -/
theorem witness_AmoResult_single :
    Obligations.AmoResult → (∃ t, exec (.amoswapW 3 8 1 0 0) agentDemo = .next t ∧ KeptReservation agentDemo t) ∧
      ∃ t, exec (.amoswapW 3 8 1 0 0) demo = .next t ∧ KeptReservation demo t := by
  intro h
  obtain ⟨t, _, h1, _, _, h2, _⟩ := (h agentDemo 3 8 1 0 0 _ 4 .swap _ (.head _)).1
    (by unfold accessGranted; decide +kernel)
  obtain ⟨u, _, h3, _, _, h4, _⟩ := (h demo 3 8 1 0 0 _ 4 .swap _ (.head _)).1 granted_amo
  exact ⟨⟨t, h1, (h2.1 (by unfold Single; decide +kernel)).2.2.2⟩, u, h3, (h4.2.2 rfl).2.2⟩

theorem witness_AmoResult_refused :
    Obligations.AmoResult → exec (.amoswapW 3 9 1 0 0) mixed = .next (trapped .storeAddrMisaligned 0x4001 mixed) :=
  fun h => (h mixed 3 9 1 0 0 _ 4 .swap _ (.head _)).2 _ refused_amo

theorem witness_ReservationOnlyByLrSc :
    Obligations.ReservationOnlyByLrSc →
      ∃ rd rs1 aq rl, Instr.lrW 3 8 0 0 = .lrW rd rs1 aq rl ∨ Instr.lrW 3 8 0 0 = .lrD rd rs1 aq rl := by
  intro h
  rcases h (.lrW 3 8 0 0) demo _ rfl (by decide +kernel) with h | ⟨_, _, _, _, _, h | h⟩ | ⟨h, _⟩
  · exact h
  · cases h
  · cases h
  · exact absurd h (by decide +kernel)

theorem permitted_fcsr : csrPermitted demo.cfg .fcsr true = true := by decide +kernel

theorem witness_CsrResult :
    Obligations.CsrResult → ∃ t, exec (.csrrw 3 0x003 5) demo = .next t ∧ t.frm = 7 ∧ t.fflags = 27 := by
  intro h
  obtain ⟨t, h1, _, _, ⟨h2, h3⟩, _⟩ := h demo 3 5 0 0x003 .fcsr _ _ rfl permitted_fcsr (.head _)
  exact ⟨t, h1, h2.trans (by decide +kernel), h3.trans (by decide +kernel)⟩

theorem witness_CsrResult_counter :
    Obligations.CsrResult → ∃ t, exec (.csrrs 3 0xC02 0) demo = .next t ∧ readX 3 t = 0 := by
  intro h
  obtain ⟨t, h1, _, h2, _⟩ := h demo 3 0 0 0xC02 (.counter 2) _ none rfl (by decide +kernel) (.tail _ (.head _))
  exact ⟨t, h1, h2.trans (by decide +kernel)⟩

theorem witness_CsrIllegal_absent :
    Obligations.CsrIllegal →
      exec (.csrrw 3 0x004 1) demo = .next (trapped .illegalInstruction 0x004091F3 demo) := by
  intro h
  have hb : truncX demo.cfg.xlen ((encode (.csrrw 3 0x004 1)).setWidth 64) = 0x004091F3 := by decide +kernel
  rw [← hb]
  refine h.1 demo 3 1 0 0x004 _ true (.head _) ?_
  intro r hr
  exact nomatch (show none = some r from hr)

theorem witness_CsrIllegal_read_only :
    Obligations.CsrIllegal →
      exec (.csrrw 3 0xC00 1) demo = .next (trapped .illegalInstruction 0xC00091F3 demo) := by
  intro h
  have hb : truncX demo.cfg.xlen ((encode (.csrrw 3 0xC00 1)).setWidth 64) = 0xC00091F3 := by decide +kernel
  rw [← hb]
  refine h.1 demo 3 1 0 0xC00 _ true (.head _) ?_
  intro r hr
  cases (show some (CsrName.counter 0) = some r from hr)
  decide +kernel

theorem witness_CsrsAndCounters :
    Obligations.CsrsAndCounters → ∃ t, exec (.csrrw 3 0x001 5) demo = .next t ∧ t.fflags = 27 := by
  intro h
  obtain ⟨⟨t, h1, _, h2, _⟩, _⟩ := h.2.2.2 demo 3 5 (.inl (by decide +kernel))
  exact ⟨t, h1, h2.trans (by decide +kernel)⟩

/-- RV32 with counters: `instret` and a constant `hpmcounter4`; `hpmcounter5` is not implemented. -/
def counting : State :=
  { mk { cfgOf .rv32 { noExt with zicsr := true, zicntr := true, zihpm := true } with
      hpm := Vector.ofFn (fun i => if i.val = 1 then .constant 0xABCD00000000 else .unimplemented) } 0x1000 [] [] 0 [] with
    instret := 0x700000009 }

theorem counting_instret : CounterIs counting 2 0x700000009 := .inl ⟨rfl, .inr (.inr ⟨rfl, rfl⟩)⟩

theorem counting_constant : CounterIs counting 4 0xABCD00000000 := .inr ⟨rfl, 1, rfl, .inr (by decide +kernel)⟩

theorem witness_CsrsAndCounters_read :
    Obligations.CsrsAndCounters → (∃ t, exec (.csrrs 3 0xC02 0) counting = .next t ∧ readX 3 t = 9) ∧
      ∃ t, exec (.csrrs 3 0xC84 0) counting = .next t ∧ readX 3 t = 0xABCD := by
  intro h
  obtain ⟨t, h1, _, h2, _⟩ := (h.2.1 counting 3 2 _ rfl counting_instret).1
  obtain ⟨u, h3, _, h4, _⟩ := (h.2.1 counting 3 4 _ rfl counting_constant).2 rfl
  exact ⟨⟨t, h1, h2.trans (by decide +kernel)⟩, u, h3, h4.trans (by decide +kernel)⟩

theorem witness_CsrsAndCounters_absent :
    Obligations.CsrsAndCounters → csrPermitted counting.cfg (.counter 5) false = false ∧
      csrPermitted demo.cfg (.counterHigh 0) false = false := by
  intro h
  refine ⟨((h.2.2.1 counting 5 false).1 (.inr ?_)).1, (h.2.2.1 demo 0 false).2.1 (by decide +kernel)⟩
  rintro ⟨v, ⟨_, h | h | h⟩ | ⟨_, k, hk, h⟩⟩
  · exact absurd h.1 (by decide)
  · exact absurd h.1 (by decide)
  · exact absurd h.1 (by decide)
  · obtain rfl : k = 2 := Fin.ext (by have : (5 : BitVec 5).toNat = 5 := rfl; omega)
    rcases h with h | h
    · exact absurd h.1 (by decide +kernel)
    · exact absurd ((show HpmKind.unimplemented = _ by decide +kernel).trans h) (by simp)

theorem witness_FlagsOnlyAccrue :
    Obligations.FlagsOnlyAccrue → ∃ t, exec (.add 3 1 5) demo = .next t ∧ t.frm = demo.frm :=
  fun h => ⟨_, rfl, (h (.add 3 1 5) demo _ rfl (by simp) (by simp)).1⟩

theorem rm_static : effectiveRm 2 demo.frm = some .rdn := by decide +kernel
theorem rm_reserved : effectiveRm 5 demo.frm = none := by decide +kernel
theorem rm_dynamic_reserved : effectiveRm 7 { demo with frm := 6 }.frm = none := by decide +kernel

theorem witness_FloatArithmeticResult :
    Obligations.FloatArithmeticResult → ∃ t, exec (.faddS 3 1 2 2) demo = .next t ∧ t.fflags = 0 := by
  intro h
  obtain ⟨t, h1, _, _, h2, _⟩ := h demo 3 1 2 0 2 .rdn _ _ rm_static (by decide +kernel) (.head _)
  exact ⟨t, h1, h2.trans (by decide +kernel)⟩

theorem unpack_one : fpUnpack .s 0x3F800000 = .num false 0x800000 (-23) := by decide +kernel

theorem one_isNumber : IsNumber .s 0x3F800000 1 := ⟨_, _, _, unpack_one, by norm_num [numReal]⟩

theorem minus_one_isNumber : IsNumber .s 0xBF800000 (-1) :=
  ⟨true, 0x800000, -23, by decide +kernel, by norm_num [numReal]⟩

theorem zero_isNumber : IsNumber .s 0 0 := ⟨false, 0, -149, by decide +kernel, by norm_num [numReal]⟩

theorem witness_ReservedRoundingModeTraps :
    Obligations.ReservedRoundingModeTraps →
      exec (.faddS 3 1 2 5) demo = .next (trapped .illegalInstruction 0x0020D1D3 demo) := by
  intro h
  have hb : truncX demo.cfg.xlen ((encode (.faddS 3 1 2 5)).setWidth 64) = 0x0020D1D3 := by decide +kernel
  rw [← hb]
  exact h demo 3 1 2 0 5 _ rm_reserved (.head _)

theorem witness_FloatSelectResult :
    Obligations.FloatSelectResult → ∃ t, exec (.fsgnjS 3 1 2) demo = .next t := by
  intro h
  obtain ⟨t, h1, _⟩ := h demo 3 1 2 _ _ (by decide +kernel) (.head _)
  exact ⟨t, h1⟩

theorem witness_FloatCompareResult :
    Obligations.FloatCompareResult → ∃ t, exec (.feqS 3 1 1) demo = .next t ∧ readX 3 t = 1 := by
  intro h
  obtain ⟨t, h1, _, h2, _⟩ := h.1 demo 3 1 1 _ _ (.head _)
  exact ⟨t, h1, h2.trans (by decide +kernel)⟩

theorem witness_FloatCompareResult_order :
    Obligations.FloatCompareResult → fpLt .s 0x7FC00000 0x3F800000 = (false, flagNV) ∧
      ((fpEq .s 0x3F800000 0x3F800000).1 = true ↔ fpOrder .s 0x3F800000 = fpOrder .s 0x3F800000) :=
  fun h => ⟨((h.2 .s 0x7FC00000 0x3F800000).1 (.inl (by decide +kernel))).2.1,
    ((h.2 .s 0x3F800000 0x3F800000).2 (by decide +kernel) (by decide +kernel)).1⟩

theorem witness_FloatClassResult :
    Obligations.FloatClassResult → ∃ t, exec (.fclassS 3 1) demo = .next t := by
  intro h
  obtain ⟨t, _, h1, _⟩ := h demo 3 1 _ _ (.head _)
  exact ⟨t, h1⟩

theorem witness_FloatToIntegerResult :
    Obligations.FloatToIntegerResult → ∃ t, exec (.fcvtWS 3 2 2) demo = .next t ∧ readX 3 t = -1 := by
  intro h
  obtain ⟨t, h1, _, h2, _⟩ := h demo 3 2 2 .rdn _ .w _ rm_static (.head _)
  exact ⟨t, h1, h2.trans (by decide +kernel)⟩

theorem witness_ConversionToFloatResult :
    Obligations.ConversionToFloatResult → ∃ t, exec (.fcvtSW 3 1 2) demo = .next t := by
  intro h
  obtain ⟨t, h1, _⟩ := h.1 demo 3 1 2 .rdn _ _ rm_static (by decide +kernel) (.head _)
  exact ⟨t, h1⟩

theorem witness_ConversionToFloatResult_value :
    Obligations.ConversionToFloatResult → fpConvert .s .d .rne 0x7F800001 = (canonicalNaN .d, flagIf true flagNV) ∧
      fpConvert .s .d .rne 0xFF800000 = (fpInf .d true, flagsNone) ∧
      fpConvert .s .d .rne 0 = (fpZero .d (fpSign .s 0), flagsNone) ∧
      RoundedOnce .d .rne 1 (fpConvert .s .d .rne 0x3F800000) ∧
      RoundedOnce .s .rne ((3 : Int) : ℝ) (fpOfInt .s .rne 3) :=
  fun h => ⟨(h.2.2 .s .d .rne 0x7F800001).1 _ (by decide +kernel), (h.2.2 .s .d .rne 0xFF800000).2.1 _ (by decide +kernel),
    (h.2.2 .s .d .rne 0).2.2.1 zero_isNumber, (h.2.2 .s .d .rne 0x3F800000).2.2.2 1 one_isNumber one_ne_zero,
    (h.2.1 .s .rne 3).2 (by decide)⟩

theorem witness_FloatMoveResult :
    Obligations.FloatMoveResult → (∃ t, exec (.fmvXW 3 2) demo = .next t ∧ readX 3 t = 0xFFFFFFFFBF800000) ∧
      ∃ t, exec (.fmvWX 3 1) demo = .next t := by
  intro h
  obtain ⟨t, h1, _, h2, _⟩ := (h demo 3 2 .s).1 _ (.tail _ (.head _))
  obtain ⟨u, h3, _⟩ := (h demo 3 1 .s).2 _ (by decide +kernel) (.tail _ (.head _))
  exact ⟨⟨t, h1, h2.trans (by decide +kernel)⟩, u, h3⟩

theorem witness_NanBoxing :
    Obligations.NanBoxing → readFp .s 1 demo = 0x3F800000 ∧ readFp .s 3 demo = canonicalNaN .s := by
  intro h
  refine ⟨((h.1 demo .s 1 0 (by decide +kernel) (by decide +kernel)).1 ?_).trans (by decide +kernel),
    (h.1 demo .s 3 0 (by decide +kernel) (by decide +kernel)).2.1 ⟨127, by decide +kernel, by decide +kernel,
      by decide +kernel⟩⟩
  intro j h1 h2
  have : ∀ k : Fin 128, 32 ≤ k.val → (readF 1 demo).getLsbD k.val = true := by decide +kernel
  exact this ⟨j, h2⟩ h1

/-- RV32 with Zdinx, a double in x12 and x13. -/
def zdinx : State :=
  mk (cfgOf .rv32 { noExt with zfinx := true, zdinx := true, zicsr := true }) 0x1000 [(12, 0x12345678), (13, 0x3FF00000)] [] 0 []

theorem witness_NanBoxing_zfinx :
    Obligations.NanBoxing → readFp .s 12 zdinx = 0x12345678 ∧ (readFp .d 12 zdinx).extractLsb' 32 32 = 0x3FF00000#32 ∧
      readFp .d 0 zdinx = 0 :=
  fun h => ⟨((h.2 zdinx 12 rfl).1 .s (by decide)).trans (by decide +kernel),
    ((h.2 zdinx 12 rfl).2.1 rfl (by decide) (by decide)).2.trans (by decide +kernel), (h.2 zdinx 0 rfl).2.2 rfl⟩

theorem witness_SignInjectionBits :
    Obligations.SignInjectionBits → fpSign .s (fpSgnj .s 0x3F800000 0x80000000).1 = true :=
  fun h => (h .s 0x3F800000 0x80000000 _ _ (.head _)).1

theorem witness_MinimumMaximum :
    Obligations.MinimumMaximum →
      ((fpMin .s 0x3F800000 0xBF800000).1 = 0x3F800000 ∨ (fpMin .s 0x3F800000 0xBF800000).1 = 0xBF800000) ∧
      (fpMin .s 0x7FC00000 0x3F800000).1 = 0x3F800000 ∧ (fpMin .s 0x3F800000 0x7F800001).1 = 0x3F800000 ∧
      (fpMin .s 0x7FC00000 0x7F800001).1 = canonicalNaN .s :=
  fun h => ⟨((h .s 0x3F800000 0xBF800000).1 (by decide +kernel) (by decide +kernel)).1,
    ((h .s 0x7FC00000 0x3F800000).2.1 (by decide +kernel) (by decide +kernel)).1,
    ((h .s 0x3F800000 0x7F800001).2.2.1 (by decide +kernel) (by decide +kernel)).1,
    ((h .s 0x7FC00000 0x7F800001).2.2.2.1 (by decide +kernel) (by decide +kernel)).1⟩

theorem witness_MinimumMaximum_zeros :
    Obligations.MinimumMaximum → (fpMin .s 0 0x80000000).1 = 0x80000000 ∧ (fpMax .s 0 0x80000000).1 = 0 :=
  fun h => ⟨(h .s 0 0).2.2.2.2.2.2.1, (h .s 0 0).2.2.2.2.2.2.2.1⟩

theorem witness_IntegerRounding :
    Obligations.IntegerRounding → roundShift .rne false 3 1 % 2 = 0 ∧ roundShift .rdn false 3 1 = 3 / 2 ^ 1 ∧
      3 ≤ roundShift .rdn true 3 1 * 2 ^ 1 :=
  fun h => ⟨(h.1 false 3 1).2.1.2.2 (by decide), (h.1 false 3 1).2.2.2.1 rfl, ((h.1 true 3 1).2.2.2.2.1 rfl).1⟩

theorem witness_FloatArithmeticExact :
    Obligations.FloatArithmeticExact → RoundedOnce .s .rne (1 + 1) (fpAdd .s .rne 0x3F800000 0x3F800000) ∧
      fpMul .s .rne 0 0x3F800000 = (fpZero .s (fpSign .s 0 != fpSign .s 0x3F800000), flagsNone) ∧
      fpAdd .s .rdn 0x3F800000 0xBF800000 = (fpZero .s (if fpSign .s 0x3F800000 = fpSign .s 0xBF800000 then
        fpSign .s 0x3F800000 else decide (Rm.rdn = .rdn)), flagsNone) :=
  fun h => ⟨(h .s .rne _ _ _ 1 1 1 one_isNumber one_isNumber one_isNumber).1 _ _ (.head _) (by norm_num),
    (h .s .rne _ _ _ 0 1 1 zero_isNumber one_isNumber one_isNumber).2.1 (by norm_num),
    (h .s .rdn _ _ _ 1 (-1) 1 one_isNumber minus_one_isNumber one_isNumber).2.2 _ _ _ _ (.head _) (by norm_num)⟩

theorem witness_DivideSquareRootRounded :
    Obligations.DivideSquareRootRounded → RoundedOnce .s .rne (1 / (-1)) (fpDiv .s .rne 0x3F800000 0xBF800000) ∧
      fpDiv .s .rne 0 0x3F800000 = (fpZero .s (fpSign .s 0 != fpSign .s 0x3F800000), flagsNone) ∧
      fpDiv .s .rne 0x3F800000 0 = (fpInf .s (fpSign .s 0x3F800000 != fpSign .s 0), flagDZ) ∧
      fpDiv .s .rne 0 0 = (canonicalNaN .s, flagNV) ∧ RoundedOnce .s .rne (Real.sqrt 1) (fpSqrt .s .rne 0x3F800000) ∧
      fpSqrt .s .rne 0 = (0, flagsNone) ∧ fpSqrt .s .rne 0xBF800000 = (canonicalNaN .s, flagNV) :=
  fun h => ⟨(h .s .rne _ _ _ _ one_isNumber minus_one_isNumber).1 (by norm_num) (by norm_num),
    (h .s .rne _ _ _ _ zero_isNumber one_isNumber).2.1 rfl (by norm_num),
    (h .s .rne _ _ _ _ one_isNumber zero_isNumber).2.2.1 (by norm_num) rfl,
    (h .s .rne _ _ _ _ zero_isNumber zero_isNumber).2.2.2.1 rfl rfl,
    (h .s .rne _ _ _ _ one_isNumber zero_isNumber).2.2.2.2.1 (by norm_num),
    (h .s .rne _ _ _ _ zero_isNumber zero_isNumber).2.2.2.2.2.1 rfl,
    (h .s .rne _ _ _ _ minus_one_isNumber zero_isNumber).2.2.2.2.2.2 (by norm_num)⟩

theorem inf_isInf : IsInf .s 0x7F800000 := ⟨false, by decide +kernel⟩

theorem witness_FloatSpecialOperands :
    Obligations.FloatSpecialOperands →
      fpAdd .s .rne 0x7FC00000 0x3F800000 =
        (canonicalNaN .s, flagIf (fpIsSNaN .s 0x7FC00000 || fpIsSNaN .s 0x3F800000) flagNV) ∧
      fpSqrt .s .rne 0x7FC00000 = (canonicalNaN .s, flagIf (fpIsSNaN .s 0x7FC00000) flagNV) ∧
      fpAdd .s .rne 0x3F800000 0x7F800000 = (fpInf .s (fpSign .s 0x7F800000 != false), flagsNone) ∧
      fpMul .s .rne 0x7F800000 0x3F800000 = (fpInf .s (fpSign .s 0x7F800000 != fpSign .s 0x3F800000), flagsNone) ∧
      fpMul .s .rne 0x7F800000 0 = (canonicalNaN .s, flagNV) ∧
      fpDiv .s .rne 0x7F800000 0x7F800000 = (canonicalNaN .s, flagNV) :=
  fun h => ⟨(h .s .rne 0x7FC00000 0x3F800000 0).2.1 (.inl (by decide +kernel)) _ (.head _),
    (h .s .rne 0x7FC00000 0 0).2.2.1 (by decide +kernel),
    ((h .s .rne 0x3F800000 0x7F800000 0).2.2.2.1 _ _ (.head _)).2.2 1 one_isNumber inf_isInf,
    (h .s .rne 0x7F800000 0x3F800000 0).2.2.2.2.1 (.inr ⟨1, one_ne_zero, .inl ⟨inf_isInf, one_isNumber⟩⟩),
    (h .s .rne 0x7F800000 0 0).2.2.2.2.2.1 (.inl ⟨inf_isInf, zero_isNumber⟩),
    (h .s .rne 0x7F800000 0x7F800000 0).2.2.2.2.2.2.1 inf_isInf inf_isInf⟩

/-- The fused clauses: an invalid product with a quiet NaN, infinities of opposite signs, a NaN, an infinite addend. -/
theorem witness_FloatSpecialOperands_fused :
    Obligations.FloatSpecialOperands →
      fpMadd .s .rne 0x7F800000 0 0x7FC00000 = (canonicalNaN .s, flagNV) ∧
      fpMsub .s .rne 0x7F800000 0x7F800000 0x3F800000 =
        (fpInf .s ((fpSign .s 0x7F800000 != fpSign .s 0x7F800000) != false), flagsNone) ∧
      fpMadd .s .rne 0x3F800000 0x3F800000 0x7F800000 = (fpInf .s (fpSign .s 0x7F800000 != false), flagsNone) :=
  fun h => ⟨((h .s .rne 0x7F800000 0 0x7FC00000).2.2.2.2.2.2.2.2.2.2 _ _ _ (.head _)).1
      (.inl ⟨inf_isInf, zero_isNumber⟩),
    ((h .s .rne 0x7F800000 0x7F800000 0x3F800000).2.2.2.2.2.2.2.2.2.2 _ _ _ (.tail _ (.head _))).2.2.1 1
      (.inl ⟨inf_isInf, inf_isInf⟩) one_isNumber,
    ((h .s .rne 0x3F800000 0x3F800000 0x7F800000).2.2.2.2.2.2.2.2.2.2 _ _ _ (.head _)).2.2.2.2 1 1 one_isNumber
      one_isNumber inf_isInf⟩

theorem witness_RoundedToFormat :
    Obligations.RoundedToFormat → fpRound .s .rup false 0x800000 (-23) = (0x3F800000, flagsNone) ∧
      RoundedOnce .h .rne (numReal false 65520 0) (fpRound .h .rne false 65520 0) :=
  fun h => ⟨(h .s .rup).1 0x3F800000 _ _ _ unpack_one, (h .h .rne).2.2 false 65520 0 (by decide)⟩

theorem unpack_big : fpUnpack .s 0x4F800000 = .num false 0x800000 9 := by decide +kernel
theorem unpack_minus_one : fpUnpack .s 0xBF800000 = .num true 0x800000 (-23) := by decide +kernel

theorem witness_ConversionClips :
    Obligations.ConversionClips → fpToIntVal .s .wu .rne 0x7FC00000 = (intTyMax .wu, flagNV) ∧
      fpToIntVal .s .w .rne 0x7F800000 = (intTyMax .w, flagNV) ∧
      fpToIntVal .s .w .rne 0xFF800000 = (intTyMin .w, flagNV) ∧
      fpToIntVal .s .w .rne 0x4F800000 = (intTyMax .w, flagNV) ∧
      fpToIntVal .s .wu .rne 0xBF800000 = (intTyMin .wu, flagNV) ∧
      fpToIntVal .s .w .rne 0x3F800000 = (1, flagIf (offGrid 0x800000 (-23) 0) flagNX) :=
  fun h => ⟨(h.2 .s .wu .rne 0x7FC00000).1 false (by decide +kernel), (h.2 .s .w .rne 0x7F800000).2.1 (by decide +kernel),
    (h.2 .s .w .rne 0xFF800000).2.2.1 (by decide +kernel),
    ((h.2 .s .w .rne 0x4F800000).2.2.2.2 _ _ _ (2 ^ 32) unpack_big (by decide +kernel)).2.2.2.1 (by decide +kernel),
    ((h.2 .s .wu .rne 0xBF800000).2.2.2.2 _ _ _ (-1) unpack_minus_one (by decide +kernel)).2.2.1 (by decide +kernel),
    ((h.2 .s .w .rne 0x3F800000).2.2.2.2 _ _ _ 1 unpack_one (by decide +kernel)).2.2.2.2 (by decide +kernel)
      (by decide +kernel)⟩

theorem witness_HintAndFenceResult :
    Obligations.HintAndFenceResult → ∃ t, exec (.fence 0 15 15 0 0) demo = .next t ∧ t.pc = 0x1004 := by
  intro h
  obtain ⟨t, h1, ⟨h2, _⟩, _⟩ := h demo 0 15 15 0 0 0 _ 4 (.head _)
  exact ⟨t, h1, h2.trans (by decide +kernel)⟩

theorem witness_FenceInstructionResult :
    Obligations.FenceInstructionResult → ∃ t, exec (.fenceI 0 0 0) demo = .next t ∧
      fetchByte t 0x2000 = readByte t 0x2000 := by
  intro h
  obtain ⟨t, h1, _, h2, _⟩ := h.1 demo 0 0 0
  exact ⟨t, h1, h2 0x2000 (by decide +kernel)⟩

/-- A byte that a store changed: its older value may still be fetched, and nothing else but its new one. -/
theorem witness_FenceInstructionResult_stale :
    Obligations.FenceInstructionResult → ∃ t, exec (.sb 5 8 0) demo = .next t ∧ (0x2000, 0x80) ∈ t.stale := by
  intro h
  refine ⟨_, rfl, (h.2.2 (.sb 5 8 0) demo _ rfl (by simp)).2.1 0x2000 (by decide +kernel) (by decide +kernel)⟩

theorem witness_FenceInstructionResult_fetch :
    Obligations.FenceInstructionResult →
      fetchByte demo 0x2000 = readByte demo 0x2000 ∨ (0x2000, fetchByte demo 0x2000) ∈ demo.stale :=
  fun h => h.2.1 demo 0x2000 (by decide +kernel)

theorem witness_CompressedIntegerResult :
    Obligations.CompressedIntegerResult → ∃ t, exec (.cAddi4spn 0 1) demo = .next t ∧ readX 8 t = 0x3004 := by
  intro h
  obtain ⟨t, h1, _, h2, _⟩ := h demo 0 0 0 0 1 0 0 _ _ _ (.head _)
  exact ⟨t, h1, h2.trans (by decide +kernel)⟩

theorem witness_CompressedIsExpansion :
    Obligations.CompressedIsExpansion → ∃ t, exec (.addi 8 2 4) demo = .next t := by
  intro h
  obtain ⟨t, h1, _⟩ := h demo 0 0 0 0 1 0 0 0 _ _ (.head _)
  exact ⟨t, h1⟩

theorem witness_DecodeOfEncode :
    Obligations.DecodeOfEncode → decode Config.reset (encode (.addi 3 1 0x800)) = .instr (.addi 3 1 0x800) :=
  fun h => h Config.reset (.addi 3 1 0x800) (by decide +kernel)

theorem witness_EncodeOfDecode :
    Obligations.EncodeOfDecode → encode .cEbreak = ((0xABCD9002#32).setWidth 16).setWidth 32 :=
  fun h => (h Config.reset 0xABCD9002#32 .cEbreak (by decide +kernel)).2.trans (by decide +kernel)

theorem witness_AlwaysIllegal :
    Obligations.AlwaysIllegal → step State.reset = .next (trapped .illegalInstruction 0 (startStep State.reset)) :=
  fun h => (h.2.2.2.2 State.reset 0 .allZeros rfl (by decide +kernel) (by decide +kernel)).trans (by congr 1)

/-- A word of a custom opcode is illegal, with its bits. -/
theorem witness_AlwaysIllegal_reserved :
    Obligations.AlwaysIllegal → step (demo.withFetchWord 32 0x0000000B) =
      .next (trapped .illegalInstruction (truncX .rv64 ((0x0000000B#32).setWidth 64))
        (startStep (demo.withFetchWord 32 0x0000000B))) :=
  fun h => h.2.2.2.2 (demo.withFetchWord 32 0x0000000B) 0x0000000B .noSuchEncoding (by decide +kernel) (by decide +kernel)
    (by decide +kernel)

theorem witness_StepRunsDecoded :
    Obligations.StepRunsDecoded →
      step (demo.withFetchWord 32 0x005081B3) =
        exec (.add 3 1 5) (observe (.add 3 1 5) (startStep (demo.withFetchWord 32 0x005081B3))) :=
  fun h => (h (demo.withFetchWord 32 0x005081B3) _ 0xB3 0x81 0x50 0x00 (.add 3 1 5) (by decide +kernel) rfl
    (by decide +kernel) (by decide +kernel)).1

/-- A platform whose agent writes main memory, and one whose agent does not. -/
theorem witness_StepStart :
    Obligations.StepStart → (startStep demo).mem = demo.mem ∧
      (startStep { demo with cfg := { Config.reset with agentWrites := true } }).io = [] :=
  fun h => ⟨((h demo).2.2.2.2.2.2.2.2.2.2.2.1 rfl).1,
    ((h { demo with cfg := { Config.reset with agentWrites := true } }).2.2.2.2.2.2.2.2.2.2.2.2.1 rfl).2.2.2.1⟩

/-- A write to the set of a failed loop's LR, no reservation held, ends the promise to it. -/
theorem witness_StepStart_loop :
    Obligations.StepStart → ∀ c ∈ wrapCells agentDemo.cfg (Config.agentWrites 0 1), c.1 = 0x2000 →
      (agentTurn 1 { again with cfg := agentDemo.cfg, reservation := none }).watch = none := by
  intro h c hc ha
  have ht := (h { again with cfg := agentDemo.cfg, reservation := none }).2.2.2.2.2.2.2.2.2.2.2.2.2 1
  refine ((ht.2.2.2.2.2.2 rfl).2.2 _ rfl).1 ⟨c, hc, ?_⟩
  rw [ha]
  decide +kernel

/-- The same by evaluation: the write touches the reservation set of the LR, which is no longer held. -/
theorem test_loop_ends_without_reservation :
    (envWrite 0 [(0x2000, 1)] { again with reservation := none }).watch = none ∧
      ((envWrite 0 [(0x9000, 1)] { again with reservation := none }).watch).isSome = true := by decide +kernel

theorem witness_FetchFaults :
    Obligations.FetchFaults → step (mk mixedCfg 0x3000 [] [] 0 []) =
      .next (trapped .instrAccessFault 0x3000 (startStep (mk mixedCfg 0x3000 [] [] 0 []))) :=
  fun h => (h _ (by decide +kernel)).1 ⟨0, by decide +kernel⟩

/-- The first parcel of a 32-bit instruction at the end of executable memory. -/
def lastParcel : State := mk mixedCfg 0x2FFE [] [] 0 [(0x2FFE, 0x33)]

theorem witness_FetchFaults_second_parcel :
    Obligations.FetchFaults → step lastParcel = .next (trapped .instrAccessFault 0x2FFE (startStep lastParcel)) :=
  fun h => (h lastParcel (by decide +kernel)).2 0x0033 (by decide +kernel) (by decide) (by decide)
    ⟨2, by decide +kernel⟩

/-- A state that waits for the environment, under each policy. -/
def waiting (p : TrapPolicy) : State :=
  { trapped .breakpoint 0x1000 demo with cfg := { Config.reset with trapPolicy := p } }

theorem witness_PendingTrapResolved_fatal :
    Obligations.PendingTrapResolved → step (waiting .fatal) = .fault (.fatalTrap ⟨.breakpoint, 0x1000, 0x1000⟩) :=
  fun h => (h (waiting .fatal) _ _ rfl rfl).1 rfl

/-- The handler's answer is a free value: each of its two kinds gives its clause. -/
theorem witness_PendingTrapResolved_handled :
    Obligations.PendingTrapResolved → step (waiting .handled) = .fault (.handlerStopped ⟨.breakpoint, 0x1000, 0x1000⟩) ∨
      ∃ t, step (waiting .handled) = .next t ∧ t.trap = none := by
  intro h
  have hs := h (waiting .handled) _ ⟨.breakpoint, 0x1000, 0x1000⟩ rfl rfl
  cases hr : Config.trapHandler ((waiting .handled).draw + 1) (hartRegs (startStep (waiting .handled)))
      (startStep (waiting .handled)).mem ⟨.breakpoint, 0x1000, 0x1000⟩ with
  | none => exact .inl (hs.2.1 rfl hr)
  | some reply =>
    obtain ⟨t, h1, h2, _⟩ := hs.2.2 reply rfl hr
    exact .inr ⟨t, h1, h2⟩

theorem demo_inv : demo.Inv where
  memCanonical := by decide +kernel
  memInside := by decide +kernel
  pcInside := by decide +kernel
  pcAligned := by decide +kernel
  xInside := by decide +kernel
  fInside := by decide +kernel
  reservationCovers := by intro r hr; cases hr
  loopBounded := by intro w hw; cases hw
  trapAtPc := by intro r hr; cases hr

theorem witness_StepKeepsInvariant :
    Obligations.StepKeepsInvariant → (trapped .illegalInstruction 0 (startStep demo)).Inv :=
  fun h => h demo _ demo_inv (by rfl)

/-- In the code to retry of a constrained loop, at a jump to itself. -/
def retrying : State :=
  { demo.withFetchWord 32 0x0000006F with
    watch := some { since := 0, lrPc := 0x1000, lrAddr := 0x2000, lrLen := 4, code := [(0x100C, 4), (0x1000, 4)],
                    last := 0x100C, retrying := true, failures := 0 } }

theorem retrying_inv : retrying.Inv where
  memCanonical := by decide +kernel
  memInside := by decide +kernel
  pcInside := by decide +kernel
  pcAligned := by decide +kernel
  xInside := by decide +kernel
  fInside := by decide +kernel
  reservationCovers := by intro r hr; cases hr
  loopBounded := by intro w hw; cases hw; exact ⟨Nat.zero_le _, Nat.zero_le _⟩
  trapAtPc := by intro r hr; cases hr

theorem witness_ConstrainedLoopSucceeds_step :
    Obligations.ConstrainedLoopSucceeds → ∃ t w, step retrying = .next t ∧ t.watch = some w ∧
      w.failures ≤ Config.scPatience 0 + 1 := by
  intro h
  have hw : (match step retrying with
      | .next t => t.watch
      | .fault _ => none
      | .refused _ => none) =
      some { since := 0, lrPc := 0x1000, lrAddr := 0x2000, lrLen := 4, code := [(0x1000, 4), (0x100C, 4)], last := 0x1000,
             retrying := true, failures := 0 } := by decide +kernel
  cases hs : step retrying with
  | next t =>
    rw [hs] at hw
    exact ⟨t, _, rfl, hw, (h.2.2.2 retrying t _ _ retrying_inv hs rfl hw rfl).2⟩
  | fault f => rw [hs] at hw; cases hw
  | refused r => rw [hs] at hw; cases hw

theorem witness_ResetInvariant : Obligations.ResetInvariant → (State.launch Config.reset (Launch.zero 0x1000)).Inv :=
  fun h => h.1 Config.reset (Launch.zero 0x1000)
    ⟨by decide +kernel, by decide +kernel, by decide +kernel, by decide +kernel, by decide +kernel, by decide +kernel,
      by decide +kernel⟩

/-- RSET and the reservation: an SC to a byte outside every block does not lie in the set. -/
theorem test_reservation_set :
    (let r := reservationFor twoBlocks.cfg 0x2000 4
     reservationCovers r twoBlocks.cfg 0x8008 8 && !reservationCovers r twoBlocks.cfg 0x2004 4) = true := by
  decide +kernel

/-- A compare-and-swap loop of 44_a_zam.md R471: after its SC has failed once, the branch back and the LR keep it. -/
theorem test_watch_of_retry :
    ((observe (.bne 5 0 (BitVec.ofInt 12 (-6))) { again with pc := 0x100C }).watch.map (fun w => w.failures)) = some 2 ∧
      (observe (.lw 5 8 0) again).watch = none ∧ (observe .pause again).watch = none := by decide +kernel

end Sys2Proof.Tests
end

section
/-! PROOFS. NOP (40_rv32i_base.md R285): the word by the round trip of ADDI, the effect by the frame of a register-immediate
instruction whose destination is `x0`. -/

namespace Sys2Proof.Machine

/-! ### Encoding and decoding of ADDI -/

/-- `x0` exists with 16 registers too (30_encoding.md R231). -/
theorem xRegOk_zero (c : Cfg) : c.xRegOk 0 = true := by simp [Cfg.xRegOk]

/-- ADDI is in every configuration; only its register fields can be reserved. -/
theorem addi_wf (c : Cfg) (rd rs1 : RegNum) (imm : BitVec 12) :
    (Instr.addi rd rs1 imm).wf c = (c.xRegOk rd && c.xRegOk rs1) := rfl

theorem decode32_encI_addi (c : Cfg) (rd rs1 : RegNum) (imm : BitVec 12) :
    decode32 c (encI 19 0 rd rs1 imm) = some (.addi rd rs1 imm) := by
  simp [decode32, decodeOpImm]

theorem decode_encode_addi {c : Cfg} {rd rs1 : RegNum} {imm : BitVec 12} (h : (Instr.addi rd rs1 imm).wf c = true) :
    decode c (encode (.addi rd rs1 imm)) = .instr (.addi rd rs1 imm) := by
  calc decode c (encode (.addi rd rs1 imm))
      = admitted c (decode32 c (encI 19 0 rd rs1 imm)) := decode_word c _ (by simp) (by simp)
    _ = admitted c (some (.addi rd rs1 imm)) := by rw [decode32_encI_addi]
    _ = .instr (.addi rd rs1 imm) := admitted_wf h

theorem encode_nop : encode (.addi 0 0 0) = 0x00000013#32 := by decide

theorem decode_nop (c : Cfg) : decode c 0x00000013#32 = .instr (.addi 0 0 0) := by
  rw [← encode_nop]
  exact decode_encode_addi (by simp only [addi_wf, xRegOk_zero, Bool.and_self])

/-! ### ADDI with destination `x0` -/

/-- `x0` reads as 0 always, so a frame that leaves it out leaves nothing out (10_state.md R41). -/
theorem KeptXBut.keptX_of_zero {s t : State} (h : KeptXBut 0 s t) : KeptX s t := by
  intro r
  by_cases hr : r = 0
  · rw [hr, readX_zero, readX_zero]
  · exact h r hr

theorem exec_addi (rd rs1 : RegNum) (imm : BitVec 12) (s : State) :
    exec (.addi rd rs1 imm) s = regImm 4 aluAdd rd rs1 (imm12 imm) s := rfl

/-- ADDI to `x0` only retires, whatever it adds: NOP and the HINTs of its code points (R285, D15). -/
theorem exec_addi_zero_spec (rs1 : RegNum) (imm : BitVec 12) (s : State) :
    ∃ t, exec (.addi 0 rs1 imm) s = .next t ∧ Retired 4 s t ∧ KeptX s t ∧ KeptBeyondX s t := by
  obtain ⟨t, hnext, hret, -, hx, hrest⟩ := regImm_spec 4 aluAdd 0 rs1 (imm12 imm) s
  exact ⟨t, (exec_addi 0 rs1 imm s).trans hnext, hret, hx.keptX_of_zero, hrest⟩

/-- Settles O44: the word is the encoding of ADDI's operands, and a result written to `x0` is discarded. -/
theorem nopResult : Obligations.NopResult :=
  ⟨decode_nop, encode_nop, exec_addi_zero_spec 0 0⟩

end Sys2Proof.Machine
end

section
/-! PROOFS. The corners of division (43_m_zmmul.md R445): the four operations in the library's terms at every width, their
values on a zero divisor and on the signed overflow, and what an instruction leaves when one of them is its result. -/

namespace Sys2Proof.Machine

/-! ### The operations at every width -/

theorem aluDivu_zero (w : Nat) (a : BitVec w) : aluDivu w a 0#w = BitVec.allOnes w := if_pos rfl

theorem aluDiv_zero (w : Nat) (a : BitVec w) : aluDiv w a 0#w = BitVec.allOnes w := if_pos rfl

theorem aluDivu_of_ne_zero {w : Nat} (a : BitVec w) {b : BitVec w} (hb : b ≠ 0#w) : aluDivu w a b = a / b := by
  rw [aluDivu, if_neg hb, BitVec.udiv_def]

theorem aluDiv_of_ne_zero {w : Nat} (a : BitVec w) {b : BitVec w} (hb : b ≠ 0#w) : aluDiv w a b = a.sdiv b := by
  rw [aluDiv, if_neg hb, ← BitVec.toInt_inj, BitVec.toInt_ofInt, BitVec.toInt_sdiv]

/-- A zero divisor needs no case of its own: the library's remainder by zero is the dividend too. -/
theorem aluRemu_eq_umod (w : Nat) (a b : BitVec w) : aluRemu w a b = a % b := by
  by_cases hb : b = 0#w
  · rw [aluRemu, if_pos hb, hb, BitVec.umod_zero]
  · rw [aluRemu, if_neg hb, BitVec.umod_def]

theorem aluRem_eq_srem (w : Nat) (a b : BitVec w) : aluRem w a b = a.srem b := by
  by_cases hb : b = 0#w
  · rw [aluRem, if_pos hb, hb, BitVec.srem_zero]
  · rw [aluRem, if_neg hb, ← BitVec.toInt_srem, BitVec.ofInt_toInt]

theorem aluRemu_zero (w : Nat) (a : BitVec w) : aluRemu w a 0#w = a := if_pos rfl

theorem aluRem_zero (w : Nat) (a : BitVec w) : aluRem w a 0#w = a := if_pos rfl

/-- The overflow row, the divisor -1 written as the register holds it. -/
theorem aluDiv_intMin_allOnes {w : Nat} (hw : 0 < w) :
    aluDiv w (BitVec.intMin w) (BitVec.allOnes w) = BitVec.intMin w := by
  have hb : BitVec.allOnes w ≠ 0#w := fun h => hw.ne' (BitVec.allOnes_eq_zero_iff.mp h)
  rw [aluDiv_of_ne_zero _ hb, ← BitVec.neg_one_eq_allOnes, BitVec.intMin_sdiv_neg_one]

/-- The remainder by -1 is 0 for every dividend, the most negative one included. -/
theorem aluRem_allOnes {w : Nat} (hw : 0 < w) (a : BitVec w) : aluRem w a (BitVec.allOnes w) = 0#w := by
  rw [aluRem_eq_srem, ← BitVec.toInt_inj, BitVec.toInt_srem, BitVec.toInt_allOnes, if_pos hw, Int.tmod_neg,
    Int.tmod_one, BitVec.toInt_zero]

/-! ### The exact quotients and remainders -/

theorem aluDivu_toNat {w : Nat} (a : BitVec w) {b : BitVec w} (hb : b ≠ 0#w) :
    (aluDivu w a b).toNat = a.toNat / b.toNat := by
  rw [aluDivu_of_ne_zero a hb, BitVec.toNat_udiv]

theorem aluRemu_toNat {w : Nat} (a b : BitVec w) : (aluRemu w a b).toNat = a.toNat % b.toNat := by
  rw [aluRemu_eq_umod, BitVec.toNat_umod]

/-- The quotient of a signed division fits its width unless the most negative integer is divided by -1. -/
theorem aluDiv_toInt {w : Nat} (hw : 0 < w) {a b : BitVec w} (hb : b ≠ 0#w)
    (hover : ¬ (a.toInt = -(2 ^ (w - 1)) ∧ b.toInt = -1)) : (aluDiv w a b).toInt = a.toInt.tdiv b.toInt := by
  have hmin : (BitVec.intMin w).toInt = -(2 ^ (w - 1)) := BitVec.toInt_intMin_of_pos hw
  have hone : (-1#w).toInt = -1 := by rw [BitVec.neg_one_eq_allOnes, BitVec.toInt_allOnes, if_pos hw]
  rw [← hmin, ← hone, BitVec.toInt_inj, BitVec.toInt_inj, not_and_or] at hover
  rw [aluDiv_of_ne_zero a hb, BitVec.toInt_sdiv_of_ne_or_ne a b hover]

theorem aluRem_toInt {w : Nat} (a b : BitVec w) : (aluRem w a b).toInt = a.toInt.tmod b.toInt := by
  rw [aluRem_eq_srem, BitVec.toInt_srem]

/-! ### Results at width XLEN -/

theorem xlenBits_pos (c : Xlen) : 0 < c.bits := by cases c <;> decide

theorem allOnes_setWidth_bits (c : Xlen) : (BitVec.allOnes 64).setWidth c.bits = BitVec.allOnes c.bits := by
  cases c <;> decide

theorem setWidth_eq_intMin {n w : Nat} {v : BitVec n} (h : v.toNat = 2 ^ (w - 1)) :
    v.setWidth w = BitVec.intMin w := by
  apply BitVec.eq_of_toNat_eq
  rw [BitVec.toNat_setWidth, h, BitVec.toNat_intMin]

theorem setWidth_eq_allOnes {n w : Nat} {v : BitVec n} (h : v.toNat = 2 ^ w - 1) : v.setWidth w = BitVec.allOnes w := by
  apply BitVec.eq_of_toNat_eq
  rw [BitVec.toNat_setWidth, h, BitVec.toNat_allOnes, Nat.mod_eq_of_lt (Nat.sub_one_lt (Nat.two_pow_pos w).ne')]

/-- An operation at width XLEN acts on the low XLEN bits of its operands, and a register takes those of the result. -/
theorem truncX_aluAtXlen {c : Xlen} {op : AluOp} {a b v : Word}
    (h : op c.bits (a.setWidth c.bits) (b.setWidth c.bits) = v.setWidth c.bits) :
    truncX c (aluAtXlen c op a b) = truncX c v := by
  cases c with
  | rv32 =>
    rw [Xlen.bits] at h
    rw [aluAtXlen, h]
    exact truncX_truncX .rv32 v
  | rv64 =>
    rw [Xlen.bits, BitVec.setWidth_eq, BitVec.setWidth_eq, BitVec.setWidth_eq] at h
    rw [aluAtXlen, h]

/-! ### An instruction that completes with a value -/

/-- The instruction raises no exception and leaves `v` in `rd`. -/
def CompletesWith (i : Instr) (rd : RegNum) (v : Word) (s : State) : Prop :=
  ∃ t, exec i s = .next t ∧ t.trap = s.trap ∧ readX rd t = writtenX s.cfg.xlen rd v

theorem KeptBeyondX.trap_eq {s t : State} (h : KeptBeyondX s t) : t.trap = s.trap := by
  obtain ⟨-, -, -, -, ⟨-, htrap, -⟩, -⟩ := h
  exact htrap

theorem writtenX_congr {c : Xlen} {v v' : Word} (rd : RegNum) (h : truncX c v = truncX c v') :
    writtenX c rd v = writtenX c rd v' := by
  rw [writtenX, writtenX, h]

theorem completesWith_of_regReg {i : Instr} {len : Nat} {op : AluOp} {rd rs1 rs2 : RegNum} {v : Word} {s : State}
    (hexec : exec i s = regReg len op rd rs1 rs2 s)
    (hop : op s.cfg.xlen.bits ((readX rs1 s).setWidth s.cfg.xlen.bits) ((readX rs2 s).setWidth s.cfg.xlen.bits) =
      v.setWidth s.cfg.xlen.bits) : CompletesWith i rd v s := by
  obtain ⟨t, hnext, -, hrd, -, hrest⟩ := regReg_spec len op rd rs1 rs2 s
  exact ⟨t, hexec.trans hnext, hrest.trap_eq, hrd.trans (writtenX_congr rd (truncX_aluAtXlen hop))⟩

theorem completesWith_of_regRegW {i : Instr} {len : Nat} {op : AluOp} {rd rs1 rs2 : RegNum} {v : Word} {s : State}
    (hexec : exec i s = regRegW len op rd rs1 rs2 s)
    (hop : (op 32 ((readX rs1 s).setWidth 32) ((readX rs2 s).setWidth 32)).signExtend 64 = v) :
    CompletesWith i rd v s := by
  obtain ⟨t, hnext, -, hrd, -, hrest⟩ := regRegW_spec len op rd rs1 rs2 s
  refine ⟨t, hexec.trans hnext, hrest.trap_eq, hrd.trans (writtenX_congr rd ?_)⟩
  rw [aluW, sextX, truncX_truncX, hop]

theorem exec_div (rd rs1 rs2 : RegNum) (s : State) : exec (.div rd rs1 rs2) s = regReg 4 aluDiv rd rs1 rs2 s := rfl
theorem exec_divu (rd rs1 rs2 : RegNum) (s : State) : exec (.divu rd rs1 rs2) s = regReg 4 aluDivu rd rs1 rs2 s := rfl
theorem exec_rem (rd rs1 rs2 : RegNum) (s : State) : exec (.rem rd rs1 rs2) s = regReg 4 aluRem rd rs1 rs2 s := rfl
theorem exec_remu (rd rs1 rs2 : RegNum) (s : State) : exec (.remu rd rs1 rs2) s = regReg 4 aluRemu rd rs1 rs2 s := rfl
theorem exec_divw (rd rs1 rs2 : RegNum) (s : State) : exec (.divw rd rs1 rs2) s = regRegW 4 aluDiv rd rs1 rs2 s := rfl
theorem exec_divuw (rd rs1 rs2 : RegNum) (s : State) : exec (.divuw rd rs1 rs2) s = regRegW 4 aluDivu rd rs1 rs2 s :=
  rfl
theorem exec_remw (rd rs1 rs2 : RegNum) (s : State) : exec (.remw rd rs1 rs2) s = regRegW 4 aluRem rd rs1 rs2 s := rfl
theorem exec_remuw (rd rs1 rs2 : RegNum) (s : State) : exec (.remuw rd rs1 rs2) s = regRegW 4 aluRemu rd rs1 rs2 s :=
  rfl

/-! ### The rows of the table -/

/-- Division by zero at width XLEN. -/
theorem zeroDivisor_completes {s : State} {rs2 : RegNum} (rd rs1 : RegNum) (hzero : readX rs2 s = 0) :
    CompletesWith (.divu rd rs1 rs2) rd (BitVec.allOnes 64) s ∧
      CompletesWith (.div rd rs1 rs2) rd (BitVec.allOnes 64) s ∧
      CompletesWith (.remu rd rs1 rs2) rd (readX rs1 s) s ∧ CompletesWith (.rem rd rs1 rs2) rd (readX rs1 s) s := by
  have hlow : (readX rs2 s).setWidth s.cfg.xlen.bits = 0#s.cfg.xlen.bits := by
    rw [hzero]
    exact BitVec.setWidth_zero _ _
  refine ⟨completesWith_of_regReg (exec_divu ..) ?_, completesWith_of_regReg (exec_div ..) ?_,
    completesWith_of_regReg (exec_remu ..) ?_, completesWith_of_regReg (exec_rem ..) ?_⟩
  · rw [hlow, aluDivu_zero, allOnes_setWidth_bits]
  · rw [hlow, aluDiv_zero, allOnes_setWidth_bits]
  · rw [hlow, aluRemu_zero]
  · rw [hlow, aluRem_zero]

/-- Signed overflow at width XLEN. -/
theorem signedOverflow_completes {s : State} {rs1 rs2 : RegNum} (rd : RegNum)
    (hmin : (readX rs1 s).toNat = 2 ^ (s.cfg.xlen.bits - 1)) (hones : (readX rs2 s).toNat = 2 ^ s.cfg.xlen.bits - 1) :
    CompletesWith (.div rd rs1 rs2) rd (readX rs1 s) s ∧ CompletesWith (.rem rd rs1 rs2) rd 0 s := by
  have hw := xlenBits_pos s.cfg.xlen
  refine ⟨completesWith_of_regReg (exec_div ..) ?_, completesWith_of_regReg (exec_rem ..) ?_⟩
  · rw [setWidth_eq_intMin hmin, setWidth_eq_allOnes hones, aluDiv_intMin_allOnes hw]
  · rw [setWidth_eq_allOnes hones, aluRem_allOnes hw]
    exact (BitVec.setWidth_zero _ _).symm

/-- Division of 32-bit words by zero. -/
theorem zeroDivisorWord_completes {s : State} {rs2 : RegNum} (rd rs1 : RegNum)
    (hzero : (readX rs2 s).setWidth 32 = 0#32) :
    CompletesWith (.divuw rd rs1 rs2) rd (BitVec.allOnes 64) s ∧
      CompletesWith (.divw rd rs1 rs2) rd (BitVec.allOnes 64) s ∧
      CompletesWith (.remuw rd rs1 rs2) rd (((readX rs1 s).setWidth 32).signExtend 64) s ∧
      CompletesWith (.remw rd rs1 rs2) rd (((readX rs1 s).setWidth 32).signExtend 64) s := by
  have hsext : (BitVec.allOnes 32).signExtend 64 = BitVec.allOnes 64 := by decide
  refine ⟨completesWith_of_regRegW (exec_divuw ..) ?_, completesWith_of_regRegW (exec_divw ..) ?_,
    completesWith_of_regRegW (exec_remuw ..) ?_, completesWith_of_regRegW (exec_remw ..) ?_⟩
  · rw [hzero, aluDivu_zero, hsext]
  · rw [hzero, aluDiv_zero, hsext]
  · rw [hzero, aluRemu_zero]
  · rw [hzero, aluRem_zero]

/-- Signed overflow of 32-bit words. -/
theorem signedOverflowWord_completes {s : State} {rs1 rs2 : RegNum} (rd : RegNum)
    (hmin : ((readX rs1 s).setWidth 32).toNat = 2 ^ 31) (hones : (readX rs2 s).setWidth 32 = BitVec.allOnes 32) :
    CompletesWith (.divw rd rs1 rs2) rd (((readX rs1 s).setWidth 32).signExtend 64) s ∧
      CompletesWith (.remw rd rs1 rs2) rd 0 s := by
  have hlow : (readX rs1 s).setWidth 32 = BitVec.intMin 32 := BitVec.eq_of_toNat_eq hmin
  refine ⟨completesWith_of_regRegW (exec_divw ..) ?_, completesWith_of_regRegW (exec_remw ..) ?_⟩
  · rw [hlow, hones, aluDiv_intMin_allOnes (by decide)]
  · rw [hones, aluRem_allOnes (by decide)]
    rfl

/-- Settles O7: each row by its lemma above; the exact results are those of the operations at every positive width. -/
theorem divisionCorners : Obligations.DivisionCorners := by
  intro s rd rs1 rs2 i v hrow
  refine ⟨?_, fun w a b hw hb => ?_⟩
  · simp only [List.mem_cons, List.not_mem_nil, or_false, Prod.mk.injEq] at hrow
    obtain ⟨hzero, hi⟩ | ⟨hmin, hones, hi⟩ | ⟨-, hzero, hi⟩ | ⟨-, hmin, hones, hi⟩ := hrow
    · obtain ⟨hdivu, hdiv, hremu, hrem⟩ := zeroDivisor_completes rd rs1 hzero
      obtain ⟨rfl, rfl⟩ | ⟨rfl, rfl⟩ | ⟨rfl, rfl⟩ | ⟨rfl, rfl⟩ := hi
      · exact hdivu
      · exact hdiv
      · exact hremu
      · exact hrem
    · obtain ⟨hdiv, hrem⟩ := signedOverflow_completes rd hmin hones
      obtain ⟨rfl, rfl⟩ | ⟨rfl, rfl⟩ := hi
      · exact hdiv
      · exact hrem
    · obtain ⟨hdivuw, hdivw, hremuw, hremw⟩ := zeroDivisorWord_completes rd rs1 hzero
      obtain ⟨rfl, rfl⟩ | ⟨rfl, rfl⟩ | ⟨rfl, rfl⟩ | ⟨rfl, rfl⟩ := hi
      · exact hdivuw
      · exact hdivw
      · exact hremuw
      · exact hremw
    · obtain ⟨hdivw, hremw⟩ := signedOverflowWord_completes rd hmin hones
      obtain ⟨rfl, rfl⟩ | ⟨rfl, rfl⟩ := hi
      · exact hdivw
      · exact hremw
  · have hpos : 0 < w := by omega
    exact ⟨⟨aluDivu_toNat a hb, aluRemu_toNat a b⟩, fun hover => ⟨aluDiv_toInt hpos hb hover, aluRem_toInt a b⟩⟩

end Sys2Proof.Machine
end

section
/-! PROOFS. The encoding (30_encoding.md R200 to R230; 48_c.md R804 to R860): every well-formed instruction is decoded from
its word, by the row of its opcode; and whatever is decoded encodes to the word it was read from, as the fields of each
format are those of the word. -/

namespace Sys2Proof

/-! ### Decoding what was encoded -/

theorem Instr.wf_iff {c : Cfg} {i : Instr} : i.wf c = true ↔ i.available c = true ∧ i.operandsOk c = true :=
  Bool.and_eq_true_iff

/-- A well-formed instruction whose word is made of fields that match its row is decoded from it. -/
theorem decode_encode_of_decode32 {c : Cfg} {i : Instr} {p : Parts} (hwf : i.wf c = true) (hword : encode i = p.word)
    (hop : p.op.toNat % 4 = 3) (hlong : p.op.toNat % 32 ≠ 31) (hrow : decode32 c p = some i) :
    decode c (encode i) = .instr i := by
  rw [hword, decode_word c p hop hlong, hrow, admitted_wf hwf]

/-- The same of a 16-bit instruction: its parcel is in a quadrant, and is not all zeros. -/
theorem decode_encode_of_decode16 {c : Cfg} {i : Instr} {p : CParts} (hwf : i.wf c = true) (hword : encode i = p.word)
    (hop : p.op.toNat ≠ 3) (hzero : p.parcel ≠ 0#16) (hrow : decode16 c p = some i) :
    decode c (encode i) = .instr i := by
  rw [hword, decode_parcel c p hop hzero, hrow, admitted_wf hwf]

/-- The one row of quadrant 0 whose function code is 0 has a set bit in its immediate. -/
theorem encCiw_parcel_ne_zero {op : BitVec 2} {f3 : BitVec 3} {rd : CRegNum} {imm : BitVec 8} (h : imm ≠ 0) :
    (encCiw op f3 rd imm).parcel ≠ 0#16 := by
  intro hz
  have himm : (cpartsOf (encCiw op f3 rd imm).parcel).immCiw = imm := by simp
  rw [hz] at himm
  exact h (himm.symm.trans (by decide))

theorem decode32_load (c : Cfg) {p : Parts} (h : p.op = 3) : decode32 c p = decodeLoad p := by simp [decode32, h]
theorem decode32_loadFp (c : Cfg) {p : Parts} (h : p.op = 7) : decode32 c p = decodeLoadFp p := by simp [decode32, h]
theorem decode32_miscMem (c : Cfg) {p : Parts} (h : p.op = 15) : decode32 c p = decodeMiscMem c p := by simp [decode32, h]
theorem decode32_opImm (c : Cfg) {p : Parts} (h : p.op = 19) : decode32 c p = decodeOpImm p := by simp [decode32, h]
theorem decode32_auipc (c : Cfg) {p : Parts} (h : p.op = 23) : decode32 c p = some (.auipc p.rd p.immUBits) := by simp [decode32, h]
theorem decode32_opImm32 (c : Cfg) {p : Parts} (h : p.op = 27) : decode32 c p = decodeOpImm32 p := by simp [decode32, h]
theorem decode32_store (c : Cfg) {p : Parts} (h : p.op = 35) : decode32 c p = decodeStore p := by simp [decode32, h]
theorem decode32_storeFp (c : Cfg) {p : Parts} (h : p.op = 39) : decode32 c p = decodeStoreFp p := by simp [decode32, h]
theorem decode32_amo (c : Cfg) {p : Parts} (h : p.op = 47) : decode32 c p = decodeAmo p := by simp [decode32, h]
theorem decode32_op (c : Cfg) {p : Parts} (h : p.op = 51) : decode32 c p = decodeOp c p := by simp [decode32, h]
theorem decode32_lui (c : Cfg) {p : Parts} (h : p.op = 55) : decode32 c p = some (.lui p.rd p.immUBits) := by simp [decode32, h]
theorem decode32_op32 (c : Cfg) {p : Parts} (h : p.op = 59) : decode32 c p = decodeOp32 p := by simp [decode32, h]
theorem decode32_madd (c : Cfg) {p : Parts} (h : p.op = 67) : decode32 c p = decodeMadd p := by simp [decode32, h]
theorem decode32_msub (c : Cfg) {p : Parts} (h : p.op = 71) : decode32 c p = decodeMsub p := by simp [decode32, h]
theorem decode32_nmsub (c : Cfg) {p : Parts} (h : p.op = 75) : decode32 c p = decodeNmsub p := by simp [decode32, h]
theorem decode32_nmadd (c : Cfg) {p : Parts} (h : p.op = 79) : decode32 c p = decodeNmadd p := by simp [decode32, h]
theorem decode32_opFp (c : Cfg) {p : Parts} (h : p.op = 83) : decode32 c p = decodeOpFp p := by simp [decode32, h]
theorem decode32_branch (c : Cfg) {p : Parts} (h : p.op = 99) : decode32 c p = decodeBranch p := by simp [decode32, h]
theorem decode32_jalr (c : Cfg) {p : Parts} (h : p.op = 103) : decode32 c p = decodeJalr p := by simp [decode32, h]
theorem decode32_jal (c : Cfg) {p : Parts} (h : p.op = 111) : decode32 c p = some (.jal p.rd p.immJBits) := by simp [decode32, h]
theorem decode32_system (c : Cfg) {p : Parts} (h : p.op = 115) : decode32 c p = decodeSystem p := by simp [decode32, h]

/-- ADD and the hints under it that have rows of their own share their words (42_zifencei_hints.md R406 to R409). -/
theorem decode_encode_of_decodeAdd {c : Cfg} {i : Instr} {rd rs1 rs2 : RegNum} (hwf : i.wf c = true)
    (hword : encode i = (encR 51 0 0 rd rs1 rs2).word) (hrow : decodeAdd c rd rs1 rs2 = i) :
    decode c (encode i) = .instr i :=
  decode_encode_of_decode32 hwf hword (by simp) (by simp) ((decode32_op c rfl).trans (by simp [decodeOp, hrow]))

theorem decode16_c2Jump (c : Cfg) (b12 : BitVec 1) (r1 r2 : RegNum) :
    decode16 c (encCr 2#2 4#3 b12 r1 r2) = decodeC2Jump c (encCr 2#2 4#3 b12 r1 r2) := by
  simp [decode16, decodeC2]

/-- So do C.ADD and its hints (42_zifencei_hints.md R410). -/
theorem decode_encode_of_decodeCAdd {c : Cfg} {i : Instr} {rd rs2 : RegNum} (hwf : i.wf c = true)
    (hword : encode i = (encCr 2 4 1 rd rs2).word) (hrs2 : rs2 ≠ 0#5) (hrow : decodeCAdd c rd rs2 = i) :
    decode c (encode i) = .instr i :=
  decode_encode_of_decode16 hwf hword (by simp) (parcel_ne_zero _ (by simp))
    (by simp [decode16_c2Jump, decodeC2Jump, hrs2, hrow])

theorem decode_encode (c : Cfg) (i : Instr) (h : i.wf c = true) : decode c (encode i) = .instr i := by
  obtain ⟨hext, hops⟩ := Instr.wf_iff.mp h
  cases i
  case lui =>
    exact decode_encode_of_decode32 h rfl (by simp) (by simp)
      ((decode32_lui c rfl).trans (by simp))
  case auipc =>
    exact decode_encode_of_decode32 h rfl (by simp) (by simp)
      ((decode32_auipc c rfl).trans (by simp))
  case jal =>
    exact decode_encode_of_decode32 h rfl (by simp) (by simp)
      ((decode32_jal c rfl).trans (by simp))
  case jalr =>
    exact decode_encode_of_decode32 h rfl (by simp) (by simp)
      ((decode32_jalr c rfl).trans (by simp [decodeJalr]))
  case beq | bne | blt | bge | bltu | bgeu =>
    exact decode_encode_of_decode32 h rfl (by simp) (by simp)
      ((decode32_branch c rfl).trans (by simp [decodeBranch]))
  case lb | lh | lw | ld | lbu | lhu | lwu =>
    exact decode_encode_of_decode32 h rfl (by simp) (by simp)
      ((decode32_load c rfl).trans (by simp [decodeLoad]))
  case sb | sh | sw | sd =>
    exact decode_encode_of_decode32 h rfl (by simp) (by simp)
      ((decode32_store c rfl).trans (by simp [decodeStore]))
  case addi | slti | sltiu | xori | ori | andi | slli | srli | srai =>
    exact decode_encode_of_decode32 h rfl (by simp) (by simp)
      ((decode32_opImm c rfl).trans (by simp [decodeOpImm]))
  case addiw | slliw | srliw | sraiw =>
    exact decode_encode_of_decode32 h rfl (by simp) (by simp)
      ((decode32_opImm32 c rfl).trans (by simp [decodeOpImm32]))
  case sub | sll | slt | sltu | xor | srl | sra | or | and | mul | mulh | mulhsu | mulhu | div | divu | rem | remu
      =>
    exact decode_encode_of_decode32 h rfl (by simp) (by simp)
      ((decode32_op c rfl).trans (by simp [decodeOp]))
  case addw | subw | sllw | srlw | sraw | mulw | divw | divuw | remw | remuw =>
    exact decode_encode_of_decode32 h rfl (by simp) (by simp)
      ((decode32_op32 c rfl).trans (by simp [decodeOp32]))
  case fenceI =>
    exact decode_encode_of_decode32 h rfl (by simp) (by simp)
      ((decode32_miscMem c rfl).trans (by simp [decodeMiscMem]))
  case csrrw | csrrs | csrrc | csrrwi | csrrsi | csrrci =>
    exact decode_encode_of_decode32 h rfl (by simp) (by simp)
      ((decode32_system c rfl).trans (by simp [decodeSystem]))
  case lrW | scW | amoswapW | amoaddW | amoxorW | amoandW | amoorW | amominW | amomaxW | amominuW | amomaxuW | lrD
      | scD | amoswapD | amoaddD | amoxorD | amoandD | amoorD | amominD | amomaxD | amominuD | amomaxuD =>
    exact decode_encode_of_decode32 h rfl (by simp) (by simp)
      ((decode32_amo c rfl).trans (by simp [decodeAmo]))
  case flh | flw | fld | flq =>
    exact decode_encode_of_decode32 h rfl (by simp) (by simp)
      ((decode32_loadFp c rfl).trans (by simp [decodeLoadFp]))
  case fsh | fsw | fsd | fsq =>
    exact decode_encode_of_decode32 h rfl (by simp) (by simp)
      ((decode32_storeFp c rfl).trans (by simp [decodeStoreFp]))
  case fmaddS | fmaddD | fmaddQ | fmaddH =>
    exact decode_encode_of_decode32 h rfl (by simp) (by simp)
      ((decode32_madd c rfl).trans (by simp [decodeMadd]))
  case fmsubS | fmsubD | fmsubQ | fmsubH =>
    exact decode_encode_of_decode32 h rfl (by simp) (by simp)
      ((decode32_msub c rfl).trans (by simp [decodeMsub]))
  case fnmsubS | fnmsubD | fnmsubQ | fnmsubH =>
    exact decode_encode_of_decode32 h rfl (by simp) (by simp)
      ((decode32_nmsub c rfl).trans (by simp [decodeNmsub]))
  case fnmaddS | fnmaddD | fnmaddQ | fnmaddH =>
    exact decode_encode_of_decode32 h rfl (by simp) (by simp)
      ((decode32_nmadd c rfl).trans (by simp [decodeNmadd]))
  case faddS | fsubS | fmulS | fdivS | fsqrtS | fsgnjS | fsgnjnS | fsgnjxS | fminS | fmaxS | fcvtWS | fcvtWuS |
      fcvtLS | fcvtLuS | fcvtSW | fcvtSWu | fcvtSL | fcvtSLu | feqS | fltS | fleS | fclassS | fmvXW | fmvWX |
      fcvtSD | fcvtSQ | fcvtSH =>
    exact decode_encode_of_decode32 h rfl (by simp) (by simp)
      ((decode32_opFp c rfl).trans (by simp [decodeOpFp, decodeOpFpS]))
  case faddD | fsubD | fmulD | fdivD | fsqrtD | fsgnjD | fsgnjnD | fsgnjxD | fminD | fmaxD | fcvtWD | fcvtWuD |
      fcvtLD | fcvtLuD | fcvtDW | fcvtDWu | fcvtDL | fcvtDLu | feqD | fltD | fleD | fclassD | fcvtDS | fmvXD |
      fmvDX | fcvtDQ | fcvtDH =>
    exact decode_encode_of_decode32 h rfl (by simp) (by simp)
      ((decode32_opFp c rfl).trans (by simp [decodeOpFp, decodeOpFpD]))
  case faddQ | fsubQ | fmulQ | fdivQ | fsqrtQ | fsgnjQ | fsgnjnQ | fsgnjxQ | fminQ | fmaxQ | fcvtWQ | fcvtWuQ |
      fcvtLQ | fcvtLuQ | fcvtQW | fcvtQWu | fcvtQL | fcvtQLu | feqQ | fltQ | fleQ | fclassQ | fcvtQS | fcvtQD |
      fcvtQH =>
    exact decode_encode_of_decode32 h rfl (by simp) (by simp)
      ((decode32_opFp c rfl).trans (by simp [decodeOpFp, decodeOpFpQ]))
  case faddH | fsubH | fmulH | fdivH | fsqrtH | fsgnjH | fsgnjnH | fsgnjxH | fminH | fmaxH | fcvtWH | fcvtWuH |
      fcvtLH | fcvtLuH | fcvtHW | fcvtHWu | fcvtHL | fcvtHLu | feqH | fltH | fleH | fclassH | fcvtHS | fcvtHD |
      fcvtHQ | fmvXH | fmvHX =>
    exact decode_encode_of_decode32 h rfl (by simp) (by simp)
      ((decode32_opFp c rfl).trans (by simp [decodeOpFp, decodeOpFpH]))
  case add rd rs1 rs2 =>
    have hrow : decodeAdd c rd rs1 rs2 = .add rd rs1 rs2 := by
      simp only [Instr.operandsOk, Bool.and_eq_true, Bool.not_eq_true'] at hops
      simp only [decodeAdd, hops, Bool.false_eq_true, if_false]
    exact decode_encode_of_decodeAdd h rfl hrow
  case ntlP1 =>
    have hntl : c.ext.zihintntl = true := hext
    exact decode_encode_of_decodeAdd (rd := 0) (rs1 := 0) (rs2 := 2) h (by decide)
      (by simp [decodeAdd, isNtlReg, hntl])
  case ntlPall =>
    have hntl : c.ext.zihintntl = true := hext
    exact decode_encode_of_decodeAdd (rd := 0) (rs1 := 0) (rs2 := 3) h (by decide)
      (by simp [decodeAdd, isNtlReg, hntl])
  case ntlS1 =>
    have hntl : c.ext.zihintntl = true := hext
    exact decode_encode_of_decodeAdd (rd := 0) (rs1 := 0) (rs2 := 4) h (by decide)
      (by simp [decodeAdd, isNtlReg, hntl])
  case ntlAll =>
    have hntl : c.ext.zihintntl = true := hext
    exact decode_encode_of_decodeAdd (rd := 0) (rs1 := 0) (rs2 := 5) h (by decide)
      (by simp [decodeAdd, isNtlReg, hntl])
  case fence fm pred succ rs1 rd =>
    have hrow : decodeFence c fm pred succ rs1 rd = .fence fm pred succ rs1 rd := by
      simp only [Instr.operandsOk, Bool.and_eq_true, Bool.not_eq_true'] at hops
      simp only [decodeFence, hops, Bool.false_eq_true, if_false]
    exact decode_encode_of_decode32 h rfl (by simp) (by simp)
      ((decode32_miscMem c rfl).trans (by simp [decodeMiscMem, hrow]))
  case fenceTso =>
    exact decode_encode_of_decode32 (p := encI 15 0 0 0 (8#4 ++ 3#4 ++ 3#4)) h (by decide) (by simp) (by simp)
      ((decode32_miscMem c rfl).trans (by simp only [decodeMiscMem, encI_fence]; rfl))
  case pause =>
    have hpause : c.ext.zihintpause = true := by simpa [Instr.available] using hext
    exact decode_encode_of_decode32 (p := encI 15 0 0 0 (0#4 ++ 1#4 ++ 0#4)) h (by decide) (by simp) (by simp)
      ((decode32_miscMem c rfl).trans
        (by simp only [decodeMiscMem, encI_fence, decodeFence, isFenceTso, isPause, hpause]; rfl))
  case ecall =>
    exact decode_encode_of_decode32 (p := encI 115 0 0 0 0) h (by decide) (by simp) (by simp)
      ((decode32_system c rfl).trans (by simp [decodeSystem, decodePriv]))
  case ebreak =>
    exact decode_encode_of_decode32 (p := encI 115 0 0 0 1) h (by decide) (by simp) (by simp)
      ((decode32_system c rfl).trans (by simp [decodeSystem, decodePriv]))
  case cAddi4spn rd imm =>
    have himm : imm ≠ 0 := by simpa [Instr.operandsOk] using hops
    exact decode_encode_of_decode16 h rfl (by simp) (encCiw_parcel_ne_zero himm) (by simp [decode16, decodeC0])
  case cFld | cLw | cFsd | cSw =>
    exact decode_encode_of_decode16 h rfl (by simp) (parcel_ne_zero _ (by simp)) (by simp [decode16, decodeC0])
  case cFlw | cFsw | cLd | cSd =>
    have hxlen : c.xlen = _ := eq_of_beq (Bool.and_eq_true_iff.mp hext).2
    exact decode_encode_of_decode16 h rfl (by simp) (parcel_ne_zero _ (by simp)) (by simp [decode16, decodeC0, hxlen])
  case cNop | cLi | cAddi16sp | cJ | cBeqz | cBnez =>
    exact decode_encode_of_decode16 h rfl (by simp) (parcel_ne_zero _ (by simp)) (by simp [decode16, decodeC1])
  case cAddi rd imm =>
    have hrd : rd ≠ 0 := by simpa using (Bool.and_eq_true_iff.mp hops).2
    exact decode_encode_of_decode16 h rfl (by simp) (parcel_ne_zero _ (by simp)) (by simpa [decode16, decodeC1] using hrd)
  case cJal | cAddiw =>
    have hxlen : c.xlen = _ := eq_of_beq (Bool.and_eq_true_iff.mp hext).2
    exact decode_encode_of_decode16 h rfl (by simp) (parcel_ne_zero _ (by simp)) (by simp [decode16, decodeC1, hxlen])
  case cLui rd imm =>
    have hrd : rd ≠ 2 := by simpa using (Bool.and_eq_true_iff.mp (Bool.and_eq_true_iff.mp hops).1).2
    exact decode_encode_of_decode16 h rfl (by simp) (parcel_ne_zero _ (by simp)) (by simpa [decode16, decodeC1] using hrd)
  case cSrli | cSrai | cAndi | cSub | cXor | cOr | cAnd | cSubw | cAddw =>
    exact decode_encode_of_decode16 h rfl (by simp) (parcel_ne_zero _ (by simp))
      (by simp [decode16, decodeC1, decodeC1Alu])
  case cSlli | cFldsp | cLwsp | cFsdsp | cSwsp =>
    exact decode_encode_of_decode16 h rfl (by simp) (parcel_ne_zero _ (by simp)) (by simp [decode16, decodeC2])
  case cFlwsp | cLdsp | cFswsp | cSdsp =>
    have hxlen : c.xlen = _ := eq_of_beq (Bool.and_eq_true_iff.mp hext).2
    exact decode_encode_of_decode16 h rfl (by simp) (parcel_ne_zero _ (by simp)) (by simp [decode16, decodeC2, hxlen])
  case cJr rs1 =>
    exact decode_encode_of_decode16 h rfl (by simp) (parcel_ne_zero _ (by simp))
      (by simp [decode16_c2Jump, decodeC2Jump])
  case cMv rd rs2 =>
    have hrs2 : rs2 ≠ 0#5 := by simpa using (Bool.and_eq_true_iff.mp hops).2
    exact decode_encode_of_decode16 h rfl (by simp) (parcel_ne_zero _ (by simp))
      (by simp [decode16_c2Jump, decodeC2Jump, hrs2])
  case cEbreak =>
    exact decode_encode_of_decode16 (p := encCr 2 4 1 0 0) h (by decide) (by simp) (by decide)
      (by simp [decode16_c2Jump, decodeC2Jump])
  case cJalr rs1 =>
    have hrs1 : rs1 ≠ 0#5 := by simpa using (Bool.and_eq_true_iff.mp hops).2
    exact decode_encode_of_decode16 h rfl (by simp) (parcel_ne_zero _ (by simp))
      (by simp [decode16_c2Jump, decodeC2Jump, hrs1])
  case cAdd rd rs2 =>
    simp only [Instr.operandsOk, Bool.and_eq_true, Bool.not_eq_true', bne_iff_ne] at hops
    obtain ⟨⟨-, hrs2⟩, hhint⟩ := hops
    have hrow : decodeCAdd c rd rs2 = .cAdd rd rs2 := by
      simp only [decodeCAdd, hhint, Bool.false_eq_true, if_false]
    exact decode_encode_of_decodeCAdd h rfl hrs2 hrow
  case cNtlP1 =>
    have hntl : c.ext.zihintntl = true := (Bool.and_eq_true_iff.mp hext).1
    exact decode_encode_of_decodeCAdd (rd := 0) (rs2 := 2) h (by decide)
      (by decide) (by simp [decodeCAdd, isNtlReg, hntl])
  case cNtlPall =>
    have hntl : c.ext.zihintntl = true := (Bool.and_eq_true_iff.mp hext).1
    exact decode_encode_of_decodeCAdd (rd := 0) (rs2 := 3) h (by decide)
      (by decide) (by simp [decodeCAdd, isNtlReg, hntl])
  case cNtlS1 =>
    have hntl : c.ext.zihintntl = true := (Bool.and_eq_true_iff.mp hext).1
    exact decode_encode_of_decodeCAdd (rd := 0) (rs2 := 4) h (by decide)
      (by decide) (by simp [decodeCAdd, isNtlReg, hntl])
  case cNtlAll =>
    have hntl : c.ext.zihintntl = true := (Bool.and_eq_true_iff.mp hext).1
    exact decode_encode_of_decodeCAdd (rd := 0) (rs2 := 5) h (by decide)
      (by decide) (by simp [decodeCAdd, isNtlReg, hntl])

/-! ### The fields of a format are those of the word (30_encoding.md R200 to R208; 48_c.md R804) -/

/-- A word of the R format is that of its fields; a field the row fixes is given by its value. -/
theorem encR_eq {p : Parts} {op : BitVec 7} {f3 : BitVec 3} {f7 : BitVec 7} {rs2 : RegNum} (hop : p.op = op)
    (hf3 : p.f3.toNat = f3.toNat) (hf7 : p.f7.toNat = f7.toNat) (hrs2 : p.rs2.toNat = rs2.toNat) :
    encR op f3 f7 p.rd p.rs1 rs2 = p := by
  obtain ⟨⟩ := p
  rw [BitVec.toNat_inj] at hf3 hf7 hrs2
  subst hop hf3 hf7 hrs2
  rfl

/-- An OP-FP word: the low two bits of funct7 are the format. -/
theorem encR_eq_of_fmt {p : Parts} {op : BitVec 7} {f3 : BitVec 3} {f7 : BitVec 7} {rs2 : RegNum} (hop : p.op = op)
    (hfmt : (p.f7.extractLsb' 0 2).toNat = f7.toNat % 4) (hf5 : (p.f7.extractLsb' 2 5).toNat = f7.toNat / 4)
    (hf3 : p.f3.toNat = f3.toNat) (hrs2 : p.rs2.toNat = rs2.toNat) : encR op f3 f7 p.rd p.rs1 rs2 = p := by
  refine encR_eq hop hf3 ?_ hrs2
  simp only [BitVec.extractLsb'_toNat, Nat.shiftRight_eq_div_pow] at hfmt hf5
  omega

/-- A fused multiply-add: the low two bits of funct7 are the format, the others the third source. -/
theorem encR_eq_fma {p : Parts} {op : BitVec 7} {fmt : BitVec 2} (hop : p.op = op)
    (hfmt : (p.f7.extractLsb' 0 2).toNat = fmt.toNat) :
    encR op p.f3 (p.f7.extractLsb' 2 5 ++ fmt) p.rd p.rs1 p.rs2 = p := by
  refine encR_eq hop rfl ?_ rfl
  simp only [toNat_append', BitVec.extractLsb'_toNat, Nat.shiftRight_eq_div_pow] at hfmt ⊢
  omega

/-- An atomic: the low two bits of funct7 are `aq` and `rl`. -/
theorem encR_eq_amo {p : Parts} {op : BitVec 7} {f3 : BitVec 3} {f5 : BitVec 5} {rs2 : RegNum} (hop : p.op = op)
    (hf3 : p.f3.toNat = f3.toNat) (hf5 : (p.f7.extractLsb' 2 5).toNat = f5.toNat) (hrs2 : p.rs2.toNat = rs2.toNat) :
    encR op f3 (f5 ++ p.f7.extractLsb' 1 1 ++ p.f7.extractLsb' 0 1) p.rd p.rs1 rs2 = p := by
  refine encR_eq hop hf3 ?_ hrs2
  simp only [toNat_append', BitVec.extractLsb'_toNat, Nat.shiftRight_eq_div_pow] at hf5 ⊢
  omega

theorem encI_eq {p : Parts} {op : BitVec 7} {f3 : BitVec 3} (hop : p.op = op) (hf3 : p.f3.toNat = f3.toNat) :
    encI op f3 p.rd p.rs1 p.immIBits = p := by
  rw [encI, Parts.immIBits, extractLsb'_append_high, extractLsb'_append_low]
  exact encR_eq hop hf3 rfl rfl

/-- A shift by an amount of six bits: the others of the immediate are the row's. -/
theorem encI_eq_shift {p : Parts} {op : BitVec 7} {f3 : BitVec 3} {f6 : BitVec 6} (hop : p.op = op)
    (hf3 : p.f3.toNat = f3.toNat) (hf6 : (p.f7.extractLsb' 1 6).toNat = f6.toNat) :
    encI op f3 p.rd p.rs1 (f6 ++ p.shamt6) = p := by
  have himm : f6 ++ p.shamt6 = p.immIBits := by
    apply BitVec.eq_of_toNat_eq
    simp only [Parts.shamt6, Parts.immIBits, toNat_append', BitVec.extractLsb'_toNat,
      Nat.shiftRight_eq_div_pow] at hf6 ⊢
    omega
  rw [himm, encI_eq hop hf3]

theorem fence_fields (p : Parts) : p.fenceFm ++ p.fencePred ++ p.fenceSucc = p.immIBits := by
  apply BitVec.eq_of_toNat_eq
  simp only [Parts.fenceFm, Parts.fencePred, Parts.fenceSucc, Parts.immIBits, toNat_append', BitVec.extractLsb'_toNat,
    Nat.shiftRight_eq_div_pow]
  omega

theorem encS_eq {p : Parts} {op : BitVec 7} {f3 : BitVec 3} (hop : p.op = op) (hf3 : p.f3.toNat = f3.toNat) :
    encS op f3 p.rs2 p.rs1 p.immSBits = p := by
  obtain ⟨⟩ := p
  rw [BitVec.toNat_inj] at hf3
  subst hop hf3
  rw [encS, Parts.immSBits, extractLsb'_append_high, extractLsb'_append_low]

theorem encB_eq {p : Parts} {op : BitVec 7} {f3 : BitVec 3} (hop : p.op = op) (hf3 : p.f3.toNat = f3.toNat) :
    encB op f3 p.rs1 p.rs2 p.immBBits = p := by
  obtain ⟨⟩ := p
  rw [BitVec.toNat_inj] at hf3
  subst hop hf3
  simp only [encB, Parts.immBBits, Parts.mk.injEq, true_and, and_true]
  refine ⟨?_, ?_⟩ <;>
    (ext i hi
     interval_cases i <;>
       simp only [BitVec.getElem_append, BitVec.getElem_extractLsb', BitVec.getLsbD_append,
         BitVec.getLsbD_extractLsb'] <;>
       simp)

theorem encU_eq {p : Parts} {op : BitVec 7} (hop : p.op = op) : encU op p.rd p.immUBits = p := by
  obtain ⟨⟩ := p
  subst hop
  simp only [encU, Parts.immUBits, Parts.mk.injEq, and_true]
  refine ⟨?_, ?_, ?_, ?_⟩ <;>
    (apply BitVec.eq_of_toNat_eq
     simp only [toNat_append', BitVec.extractLsb'_toNat, Nat.shiftRight_eq_div_pow]
     omega)

theorem encJ_eq {p : Parts} {op : BitVec 7} (hop : p.op = op) : encJ op p.rd p.immJBits = p := by
  obtain ⟨⟩ := p
  subst hop
  simp only [encJ, Parts.immJBits, Parts.mk.injEq, and_true]
  refine ⟨?_, ?_, ?_, ?_⟩ <;>
    (ext i hi
     interval_cases i <;>
       simp only [BitVec.getElem_append, BitVec.getElem_extractLsb', BitVec.getLsbD_append,
         BitVec.getLsbD_extractLsb'] <;>
       simp)

theorem append_q1 (p : CParts) : p.f2hi ++ p.q1 = p.r1 :=
  BitVec.extractLsb'_append_extractLsb'

theorem append_q2 (p : CParts) : p.f2lo ++ p.q2 = p.r2 :=
  BitVec.extractLsb'_append_extractLsb'

theorem encCi_eq {p : CParts} {op : BitVec 2} {f3 : BitVec 3} (hop : p.op = op) (hf3 : p.f3.toNat = f3.toNat) :
    encCi op f3 p.r1 p.imm6 = p := by
  obtain ⟨⟩ := p
  rw [BitVec.toNat_inj] at hf3
  subst hop hf3
  rw [encCi, CParts.imm6, extractLsb'_append_high, extractLsb'_append_low]

/-- A shift or C.ANDI: the upper two bits of the first register field are the row's. -/
theorem encCi_eq_of_f2hi {p : CParts} {op : BitVec 2} {f3 : BitVec 3} {f2 : BitVec 2} (hop : p.op = op)
    (hf3 : p.f3.toNat = f3.toNat) (hf2 : p.f2hi.toNat = f2.toNat) : encCi op f3 (f2 ++ p.q1) p.imm6 = p := by
  rw [BitVec.toNat_inj] at hf2
  have hr1 : f2 ++ p.q1 = p.r1 := by rw [← hf2, append_q1]
  rw [hr1, encCi_eq hop hf3]

/-- The CR format, whose second register field a row may fix. -/
theorem encCr_eq {p : CParts} {op : BitVec 2} {f3 : BitVec 3} {b12 : BitVec 1} {r1 r2 : RegNum} (hop : p.op = op)
    (hf3 : p.f3.toNat = f3.toNat) (hb12 : p.b12 = b12) (hr1 : p.r1 = r1) (hr2 : p.r2 = r2) :
    encCr op f3 b12 r1 r2 = p := by
  obtain ⟨⟩ := p
  rw [BitVec.toNat_inj] at hf3
  subst hop hf3 hb12 hr1 hr2
  rfl

theorem encCa_eq {p : CParts} {op : BitVec 2} {f3 : BitVec 3} {b12 : BitVec 1} {f2 : BitVec 2} (hop : p.op = op)
    (hf3 : p.f3.toNat = f3.toNat) (hf2hi : p.f2hi = 3#2) (hb12 : p.b12.toNat = b12.toNat)
    (hf2lo : p.f2lo.toNat = f2.toNat) : encCa op f3 b12 f2 p.q1 p.q2 = p := by
  rw [BitVec.toNat_inj] at hb12 hf2lo
  rw [encCa, ← hop, ← BitVec.eq_of_toNat_eq hf3, ← hb12, ← hf2lo, ← hf2hi, append_q1, append_q2]

theorem encC16sp_eq {p : CParts} {op : BitVec 2} {f3 : BitVec 3} (hop : p.op = op) (hf3 : p.f3.toNat = f3.toNat)
    (hr1 : p.r1 = 2) :
    encC16sp op f3 p.imm16sp = p := by
  obtain ⟨⟩ := p
  rw [BitVec.toNat_inj] at hf3
  subst hop hf3 hr1
  simp only [encC16sp, CParts.imm16sp, CParts.mk.injEq, true_and, and_true]
  refine ⟨?_, ?_⟩ <;>
    (ext i hi
     interval_cases i <;>
       simp only [BitVec.getElem_append, BitVec.getElem_extractLsb', BitVec.getLsbD_append,
         BitVec.getLsbD_extractLsb'] <;>
       simp)

theorem encClwsp_eq {p : CParts} {op : BitVec 2} {f3 : BitVec 3} (hop : p.op = op) (hf3 : p.f3.toNat = f3.toNat) :
    encClwsp op f3 p.r1 p.immLwsp = p := by
  obtain ⟨⟩ := p
  rw [BitVec.toNat_inj] at hf3
  subst hop hf3
  simp only [encClwsp, CParts.immLwsp, CParts.mk.injEq, true_and, and_true]
  refine ⟨?_, ?_⟩ <;>
    (ext i hi
     interval_cases i <;>
       simp only [BitVec.getElem_append, BitVec.getElem_extractLsb', BitVec.getLsbD_append,
         BitVec.getLsbD_extractLsb'] <;>
       simp)

theorem encCldsp_eq {p : CParts} {op : BitVec 2} {f3 : BitVec 3} (hop : p.op = op) (hf3 : p.f3.toNat = f3.toNat) :
    encCldsp op f3 p.r1 p.immLdsp = p := by
  obtain ⟨⟩ := p
  rw [BitVec.toNat_inj] at hf3
  subst hop hf3
  simp only [encCldsp, CParts.immLdsp, CParts.mk.injEq, true_and, and_true]
  refine ⟨?_, ?_⟩ <;>
    (ext i hi
     interval_cases i <;>
       simp only [BitVec.getElem_append, BitVec.getElem_extractLsb', BitVec.getLsbD_append,
         BitVec.getLsbD_extractLsb'] <;>
       simp)

theorem encCswsp_eq {p : CParts} {op : BitVec 2} {f3 : BitVec 3} (hop : p.op = op) (hf3 : p.f3.toNat = f3.toNat) :
    encCswsp op f3 p.r2 p.immSwsp = p := by
  obtain ⟨⟩ := p
  rw [BitVec.toNat_inj] at hf3
  subst hop hf3
  simp only [encCswsp, CParts.immSwsp, CParts.mk.injEq, true_and, and_true]
  refine ⟨?_, ?_⟩ <;>
    (ext i hi
     interval_cases i <;>
       simp only [BitVec.getElem_append, BitVec.getElem_extractLsb', BitVec.getLsbD_append,
         BitVec.getLsbD_extractLsb'] <;>
       simp)

theorem encCsdsp_eq {p : CParts} {op : BitVec 2} {f3 : BitVec 3} (hop : p.op = op) (hf3 : p.f3.toNat = f3.toNat) :
    encCsdsp op f3 p.r2 p.immSdsp = p := by
  obtain ⟨⟩ := p
  rw [BitVec.toNat_inj] at hf3
  subst hop hf3
  simp only [encCsdsp, CParts.immSdsp, CParts.mk.injEq, true_and, and_true]
  refine ⟨?_, ?_⟩ <;>
    (ext i hi
     interval_cases i <;>
       simp only [BitVec.getElem_append, BitVec.getElem_extractLsb', BitVec.getLsbD_append,
         BitVec.getLsbD_extractLsb'] <;>
       simp)

theorem encCiw_eq {p : CParts} {op : BitVec 2} {f3 : BitVec 3} (hop : p.op = op) (hf3 : p.f3.toNat = f3.toNat) :
    encCiw op f3 p.q2 p.immCiw = p := by
  obtain ⟨⟩ := p
  rw [BitVec.toNat_inj] at hf3
  subst hop hf3
  simp only [encCiw, CParts.immCiw, CParts.q2, CParts.mk.injEq, true_and, and_true]
  refine ⟨?_, ?_, ?_⟩ <;>
    (ext i hi
     interval_cases i <;>
       simp only [BitVec.getElem_append, BitVec.getElem_extractLsb', BitVec.getLsbD_append,
         BitVec.getLsbD_extractLsb'] <;>
       simp)

theorem encClw_eq {p : CParts} {op : BitVec 2} {f3 : BitVec 3} (hop : p.op = op) (hf3 : p.f3.toNat = f3.toNat) :
    encClw op f3 p.q2 p.q1 p.immClw = p := by
  obtain ⟨⟩ := p
  rw [BitVec.toNat_inj] at hf3
  subst hop hf3
  simp only [encClw, CParts.immClw, CParts.hi3, CParts.f2hi, CParts.q1, CParts.q2, CParts.mk.injEq, true_and, and_true]
  refine ⟨?_, ?_, ?_⟩ <;>
    (ext i hi
     interval_cases i <;>
       simp only [BitVec.getElem_append, BitVec.getElem_extractLsb', BitVec.getLsbD_append,
         BitVec.getLsbD_extractLsb'] <;>
       simp)

theorem encCld_eq {p : CParts} {op : BitVec 2} {f3 : BitVec 3} (hop : p.op = op) (hf3 : p.f3.toNat = f3.toNat) :
    encCld op f3 p.q2 p.q1 p.immCld = p := by
  obtain ⟨⟩ := p
  rw [BitVec.toNat_inj] at hf3
  subst hop hf3
  simp only [encCld, CParts.immCld, CParts.hi3, CParts.f2hi, CParts.f2lo, CParts.q1, CParts.q2, CParts.mk.injEq, true_and, and_true]
  refine ⟨?_, ?_, ?_⟩ <;>
    (ext i hi
     interval_cases i <;>
       simp only [BitVec.getElem_append, BitVec.getElem_extractLsb', BitVec.getLsbD_append,
         BitVec.getLsbD_extractLsb'] <;>
       simp)

theorem encCb_eq {p : CParts} {op : BitVec 2} {f3 : BitVec 3} (hop : p.op = op) (hf3 : p.f3.toNat = f3.toNat) :
    encCb op f3 p.q1 p.immCb = p := by
  obtain ⟨⟩ := p
  rw [BitVec.toNat_inj] at hf3
  subst hop hf3
  simp only [encCb, CParts.immCb, CParts.q1, CParts.mk.injEq, true_and, and_true]
  refine ⟨?_, ?_, ?_⟩ <;>
    (ext i hi
     interval_cases i <;>
       simp only [BitVec.getElem_append, BitVec.getElem_extractLsb', BitVec.getLsbD_append,
         BitVec.getLsbD_extractLsb'] <;>
       simp)

theorem encCj_eq {p : CParts} {op : BitVec 2} {f3 : BitVec 3} (hop : p.op = op) (hf3 : p.f3.toNat = f3.toNat) :
    encCj op f3 p.immCj = p := by
  obtain ⟨⟩ := p
  rw [BitVec.toNat_inj] at hf3
  subst hop hf3
  simp only [encCj, CParts.immCj, CParts.mk.injEq, true_and, and_true]
  refine ⟨?_, ?_, ?_⟩ <;>
    (ext i hi
     interval_cases i <;>
       simp only [BitVec.getElem_append, BitVec.getElem_extractLsb', BitVec.getLsbD_append,
         BitVec.getLsbD_extractLsb'] <;>
       simp)

/-! ### Encoding what was decoded: 32-bit words -/

theorem encode_of_decodeLoad {p : Parts} {i : Instr} (hop : p.op = 3) (h : decodeLoad p = some i) :
    encode i = p.word := by
  unfold decodeLoad at h
  repeat' split at h
  all_goals cases h
  all_goals exact congrArg Parts.word (encI_eq hop (by simp [*]))

theorem encode_of_decodeLoadFp {p : Parts} {i : Instr} (hop : p.op = 7) (h : decodeLoadFp p = some i) :
    encode i = p.word := by
  unfold decodeLoadFp at h
  repeat' split at h
  all_goals cases h
  all_goals exact congrArg Parts.word (encI_eq hop (by simp [*]))

theorem encode_of_decodeStore {p : Parts} {i : Instr} (hop : p.op = 35) (h : decodeStore p = some i) :
    encode i = p.word := by
  unfold decodeStore at h
  repeat' split at h
  all_goals cases h
  all_goals exact congrArg Parts.word (encS_eq hop (by simp [*]))

theorem encode_of_decodeStoreFp {p : Parts} {i : Instr} (hop : p.op = 39) (h : decodeStoreFp p = some i) :
    encode i = p.word := by
  unfold decodeStoreFp at h
  repeat' split at h
  all_goals cases h
  all_goals exact congrArg Parts.word (encS_eq hop (by simp [*]))

theorem encode_of_decodeBranch {p : Parts} {i : Instr} (hop : p.op = 99) (h : decodeBranch p = some i) :
    encode i = p.word := by
  unfold decodeBranch at h
  repeat' split at h
  all_goals cases h
  all_goals exact congrArg Parts.word (encB_eq hop (by simp [*]))

theorem encode_of_decodeJalr {p : Parts} {i : Instr} (hop : p.op = 103) (h : decodeJalr p = some i) :
    encode i = p.word := by
  unfold decodeJalr at h
  repeat' split at h
  all_goals cases h
  all_goals exact congrArg Parts.word (encI_eq hop (by simp [*]))

theorem encode_of_decodeOp32 {p : Parts} {i : Instr} (hop : p.op = 59) (h : decodeOp32 p = some i) :
    encode i = p.word := by
  unfold decodeOp32 at h
  repeat' split at h
  all_goals cases h
  all_goals exact congrArg Parts.word (encR_eq hop (by simp [*]) (by simp [*]) rfl)

theorem encode_of_decodeAmo {p : Parts} {i : Instr} (hop : p.op = 47) (h : decodeAmo p = some i) :
    encode i = p.word := by
  unfold decodeAmo at h
  repeat' split at h
  all_goals cases h
  all_goals exact congrArg Parts.word (encR_eq_amo hop (by simp [*]) (by simp [*]) (by simp [*]))

theorem encode_of_decodeMadd {p : Parts} {i : Instr} (hop : p.op = 67) (h : decodeMadd p = some i) :
    encode i = p.word := by
  unfold decodeMadd at h
  repeat' split at h
  all_goals cases h
  all_goals exact congrArg Parts.word (encR_eq_fma hop (by simp [*]))

theorem encode_of_decodeMsub {p : Parts} {i : Instr} (hop : p.op = 71) (h : decodeMsub p = some i) :
    encode i = p.word := by
  unfold decodeMsub at h
  repeat' split at h
  all_goals cases h
  all_goals exact congrArg Parts.word (encR_eq_fma hop (by simp [*]))

theorem encode_of_decodeNmsub {p : Parts} {i : Instr} (hop : p.op = 75) (h : decodeNmsub p = some i) :
    encode i = p.word := by
  unfold decodeNmsub at h
  repeat' split at h
  all_goals cases h
  all_goals exact congrArg Parts.word (encR_eq_fma hop (by simp [*]))

theorem encode_of_decodeNmadd {p : Parts} {i : Instr} (hop : p.op = 79) (h : decodeNmadd p = some i) :
    encode i = p.word := by
  unfold decodeNmadd at h
  repeat' split at h
  all_goals cases h
  all_goals exact congrArg Parts.word (encR_eq_fma hop (by simp [*]))

theorem encode_of_decodeOpFpS {p : Parts} {i : Instr} (hop : p.op = 83) (hfmt : (p.f7.extractLsb' 0 2).toNat = 0) (h : decodeOpFpS p = some i) :
    encode i = p.word := by
  unfold decodeOpFpS at h
  repeat' split at h
  all_goals cases h
  all_goals exact congrArg Parts.word (encR_eq_of_fmt hop (by simp [*]) (by simp [*]) (by simp [*]) (by simp [*]))

theorem encode_of_decodeOpFpD {p : Parts} {i : Instr} (hop : p.op = 83) (hfmt : (p.f7.extractLsb' 0 2).toNat = 1) (h : decodeOpFpD p = some i) :
    encode i = p.word := by
  unfold decodeOpFpD at h
  repeat' split at h
  all_goals cases h
  all_goals exact congrArg Parts.word (encR_eq_of_fmt hop (by simp [*]) (by simp [*]) (by simp [*]) (by simp [*]))

theorem encode_of_decodeOpFpH {p : Parts} {i : Instr} (hop : p.op = 83) (hfmt : (p.f7.extractLsb' 0 2).toNat = 2) (h : decodeOpFpH p = some i) :
    encode i = p.word := by
  unfold decodeOpFpH at h
  repeat' split at h
  all_goals cases h
  all_goals exact congrArg Parts.word (encR_eq_of_fmt hop (by simp [*]) (by simp [*]) (by simp [*]) (by simp [*]))

theorem encode_of_decodeOpFpQ {p : Parts} {i : Instr} (hop : p.op = 83) (hfmt : (p.f7.extractLsb' 0 2).toNat = 3) (h : decodeOpFpQ p = some i) :
    encode i = p.word := by
  unfold decodeOpFpQ at h
  repeat' split at h
  all_goals cases h
  all_goals exact congrArg Parts.word (encR_eq_of_fmt hop (by simp [*]) (by simp [*]) (by simp [*]) (by simp [*]))

theorem encode_of_decodeOpImm {p : Parts} {i : Instr} (hop : p.op = 19) (h : decodeOpImm p = some i) :
    encode i = p.word := by
  unfold decodeOpImm at h
  split at h
  case h_2 | h_6 =>
    split at h
    all_goals cases h
    all_goals exact congrArg Parts.word (encI_eq_shift hop (by simp [*]) (by simp [*]))
  all_goals cases h
  all_goals exact congrArg Parts.word (encI_eq hop (by simp [*]))

theorem encode_of_decodeOpImm32 {p : Parts} {i : Instr} (hop : p.op = 27) (h : decodeOpImm32 p = some i) :
    encode i = p.word := by
  unfold decodeOpImm32 at h
  split at h
  case h_1 =>
    cases h
    exact congrArg Parts.word (encI_eq hop (by simp [*]))
  all_goals repeat' split at h
  all_goals cases h
  all_goals exact congrArg Parts.word (encR_eq hop (by simp [*]) (by simp [*]) rfl)

theorem encode_of_decodeOpFp {p : Parts} {i : Instr} (hop : p.op = 83) (h : decodeOpFp p = some i) :
    encode i = p.word := by
  unfold decodeOpFp at h
  split at h
  case h_1 hfmt => exact encode_of_decodeOpFpS hop hfmt h
  case h_2 hfmt => exact encode_of_decodeOpFpD hop hfmt h
  case h_3 hfmt => exact encode_of_decodeOpFpH hop hfmt h
  case h_4 hS hD hH =>
    have hlt : (p.f7.extractLsb' 0 2).toNat < 4 := (p.f7.extractLsb' 0 2).isLt
    exact encode_of_decodeOpFpQ hop (by simp only [imp_false] at hS hD hH; omega) h

/-- The code points of FENCE with rows of their own are the words of those rows. -/
theorem encode_decodeFence (c : Cfg) (fm pred succ : BitVec 4) (rs1 rd : RegNum) :
    encode (decodeFence c fm pred succ rs1 rd) = (encI 15 0 rd rs1 (fm ++ pred ++ succ)).word := by
  unfold decodeFence
  split_ifs with htso hpause
  · simp only [isFenceTso, Bool.and_eq_true, beq_iff_eq] at htso
    obtain ⟨⟨⟨⟨rfl, rfl⟩, rfl⟩, rfl⟩, rfl⟩ := htso
    decide
  · simp only [isPause, Bool.and_eq_true, beq_iff_eq] at hpause
    obtain ⟨-, ⟨⟨⟨rfl, rfl⟩, rfl⟩, rfl⟩, rfl⟩ := hpause
    decide
  · rfl

theorem encode_of_decodeMiscMem {c : Cfg} {p : Parts} {i : Instr} (hop : p.op = 15)
    (h : decodeMiscMem c p = some i) : encode i = p.word := by
  unfold decodeMiscMem at h
  split at h
  all_goals cases h
  · rw [encode_decodeFence, fence_fields, encI_eq hop (by simp [*])]
  · exact congrArg Parts.word (encI_eq hop (by simp [*]))

theorem encode_of_decodePriv {p : Parts} {i : Instr} (hop : p.op = 115) (hf3 : p.f3.toNat = 0)
    (h : decodePriv p = some i) : encode i = p.word := by
  rw [← encI_eq (f3 := 0) hop hf3]
  unfold decodePriv at h
  split at h
  case isFalse => cases h
  case isTrue hregs =>
    obtain ⟨hrs1, hrd⟩ := hregs
    rw [hrs1, hrd]
    split at h
    all_goals cases h
    case h_1 himm =>
      have himm : p.immIBits = 0 := BitVec.eq_of_toNat_eq himm
      rw [himm]
      decide
    case h_2 himm =>
      have himm : p.immIBits = 1 := BitVec.eq_of_toNat_eq himm
      rw [himm]
      decide

theorem encode_of_decodeSystem {p : Parts} {i : Instr} (hop : p.op = 115) (h : decodeSystem p = some i) :
    encode i = p.word := by
  unfold decodeSystem at h
  split at h
  case h_1 hf3 => exact encode_of_decodePriv hop hf3 h
  all_goals cases h
  all_goals exact congrArg Parts.word (encI_eq hop (by simp [*]))

/-- What NTL hints leave of the register field: one of four values. -/
theorem isNtlReg_iff {r : RegNum} : isNtlReg r = true ↔ ((r = 2 ∨ r = 3) ∨ r = 4) ∨ r = 5 := by
  simp only [isNtlReg, Bool.or_eq_true, beq_iff_eq]

/-- The code points of ADD with rows of their own are the words of those rows. -/
theorem encode_decodeAdd (c : Cfg) (rd rs1 rs2 : RegNum) :
    encode (decodeAdd c rd rs1 rs2) = (encR 51 0 0 rd rs1 rs2).word := by
  unfold decodeAdd
  split_ifs with hntl
  · simp only [Bool.and_eq_true, beq_iff_eq, isNtlReg_iff] at hntl
    obtain ⟨⟨⟨-, rfl⟩, rfl⟩, ((rfl | rfl) | rfl) | rfl⟩ := hntl <;> decide
  · rfl

theorem encode_of_decodeOp {c : Cfg} {p : Parts} {i : Instr} (hop : p.op = 51) (h : decodeOp c p = some i) :
    encode i = p.word := by
  unfold decodeOp at h
  split at h
  case h_1 =>
    split at h
    all_goals cases h
    case h_1 => rw [encode_decodeAdd, encR_eq hop (by simp [*]) (by simp [*]) rfl]
    all_goals exact congrArg Parts.word (encR_eq hop (by simp [*]) (by simp [*]) rfl)
  all_goals repeat' split at h
  all_goals cases h
  all_goals exact congrArg Parts.word (encR_eq hop (by simp [*]) (by simp [*]) rfl)

/-- What a 32-bit word is decoded to encodes to the word. -/
theorem encode_of_decode32 {c : Cfg} {p : Parts} {i : Instr} (h : decode32 c p = some i) : encode i = p.word := by
  unfold decode32 at h
  split at h
  case h_1 hop => exact encode_of_decodeLoad (BitVec.eq_of_toNat_eq hop) h
  case h_2 hop => exact encode_of_decodeLoadFp (BitVec.eq_of_toNat_eq hop) h
  case h_3 hop => exact encode_of_decodeMiscMem (BitVec.eq_of_toNat_eq hop) h
  case h_4 hop => exact encode_of_decodeOpImm (BitVec.eq_of_toNat_eq hop) h
  case h_5 hop =>
    cases h
    exact congrArg Parts.word (encU_eq (op := 23) (BitVec.eq_of_toNat_eq hop))
  case h_6 hop => exact encode_of_decodeOpImm32 (BitVec.eq_of_toNat_eq hop) h
  case h_7 hop => exact encode_of_decodeStore (BitVec.eq_of_toNat_eq hop) h
  case h_8 hop => exact encode_of_decodeStoreFp (BitVec.eq_of_toNat_eq hop) h
  case h_9 hop => exact encode_of_decodeAmo (BitVec.eq_of_toNat_eq hop) h
  case h_10 hop => exact encode_of_decodeOp (BitVec.eq_of_toNat_eq hop) h
  case h_11 hop =>
    cases h
    exact congrArg Parts.word (encU_eq (op := 55) (BitVec.eq_of_toNat_eq hop))
  case h_12 hop => exact encode_of_decodeOp32 (BitVec.eq_of_toNat_eq hop) h
  case h_13 hop => exact encode_of_decodeMadd (BitVec.eq_of_toNat_eq hop) h
  case h_14 hop => exact encode_of_decodeMsub (BitVec.eq_of_toNat_eq hop) h
  case h_15 hop => exact encode_of_decodeNmsub (BitVec.eq_of_toNat_eq hop) h
  case h_16 hop => exact encode_of_decodeNmadd (BitVec.eq_of_toNat_eq hop) h
  case h_17 hop => exact encode_of_decodeOpFp (BitVec.eq_of_toNat_eq hop) h
  case h_18 hop => exact encode_of_decodeBranch (BitVec.eq_of_toNat_eq hop) h
  case h_19 hop => exact encode_of_decodeJalr (BitVec.eq_of_toNat_eq hop) h
  case h_20 hop =>
    cases h
    exact congrArg Parts.word (encJ_eq (op := 111) (BitVec.eq_of_toNat_eq hop))
  case h_21 hop => exact encode_of_decodeSystem (BitVec.eq_of_toNat_eq hop) h
  case h_22 => cases h

/-! ### Encoding what was decoded: 16-bit parcels -/

theorem encode_of_decodeC0 {c : Cfg} {p : CParts} {i : Instr} (hop : p.op = 0) (h : decodeC0 c p = some i) :
    encode i = p.word := by
  unfold decodeC0 at h
  split at h
  case h_1 =>
    cases h
    exact congrArg CParts.word (encCiw_eq hop (by simp [*]))
  case h_2 | h_5 =>
    cases h
    exact congrArg CParts.word (encCld_eq hop (by simp [*]))
  case h_3 | h_6 =>
    cases h
    exact congrArg CParts.word (encClw_eq hop (by simp [*]))
  case h_4 | h_7 =>
    split at h
    all_goals cases h
    case h_1 => exact congrArg CParts.word (encClw_eq hop (by simp [*]))
    case h_2 => exact congrArg CParts.word (encCld_eq hop (by simp [*]))
  case h_8 => cases h

theorem encode_of_decodeC1Alu {p : CParts} {i : Instr} (hop : p.op = 1) (hf3 : p.f3.toNat = 4)
    (h : decodeC1Alu p = some i) : encode i = p.word := by
  unfold decodeC1Alu at h
  split at h
  case h_4 h0 h1 h2 =>
    have hlt : p.f2hi.toNat < 4 := p.f2hi.isLt
    have hf2 : p.f2hi.toNat = (3#2).toNat := by
      simp only [imp_false] at h0 h1 h2
      simp only [BitVec.toNat_ofNat]
      omega
    split at h
    all_goals cases h
    all_goals
      exact congrArg CParts.word
        (encCa_eq hop (by simp [*]) (BitVec.eq_of_toNat_eq hf2) (by simp [*]) (by simp [*]))
  all_goals cases h
  all_goals exact congrArg CParts.word (encCi_eq_of_f2hi hop (by simp [*]) (by simp [*]))

theorem encode_of_decodeC1 {c : Cfg} {p : CParts} {i : Instr} (hop : p.op = 1) (h : decodeC1 c p = some i) :
    encode i = p.word := by
  unfold decodeC1 at h
  split at h
  case h_1 =>
    split at h
    all_goals cases h
    case isTrue hr1 => exact congrArg CParts.word (hr1 ▸ encCi_eq hop (by simp [*]))
    case isFalse => exact congrArg CParts.word (encCi_eq hop (by simp [*]))
  case h_2 =>
    split at h
    all_goals cases h
    case h_1 => exact congrArg CParts.word (encCj_eq hop (by simp [*]))
    case h_2 => exact congrArg CParts.word (encCi_eq hop (by simp [*]))
  case h_3 =>
    cases h
    exact congrArg CParts.word (encCi_eq hop (by simp [*]))
  case h_4 =>
    split at h
    all_goals cases h
    case isTrue hr1 => exact congrArg CParts.word (encC16sp_eq hop (by simp [*]) hr1)
    case isFalse => exact congrArg CParts.word (encCi_eq hop (by simp [*]))
  case h_5 hf3 => exact encode_of_decodeC1Alu hop hf3 h
  case h_6 =>
    cases h
    exact congrArg CParts.word (encCj_eq hop (by simp [*]))
  case h_7 =>
    cases h
    exact congrArg CParts.word (encCb_eq hop (by simp [*]))
  case h_8 h0 h1 h2 h3 h4 h5 h6 =>
    have hlt : p.f3.toNat < 8 := p.f3.isLt
    have hf3 : p.f3.toNat = 7 := by
      simp only [imp_false] at h0 h1 h2 h3 h4 h5 h6
      omega
    cases h
    exact congrArg CParts.word (encCb_eq hop (by simp [*]))

/-- The code points of C.ADD with rows of their own are the words of those rows. -/
theorem encode_decodeCAdd (c : Cfg) (rd rs2 : RegNum) : encode (decodeCAdd c rd rs2) = (encCr 2 4 1 rd rs2).word := by
  unfold decodeCAdd
  split_ifs with hntl
  · simp only [Bool.and_eq_true, beq_iff_eq, isNtlReg_iff] at hntl
    obtain ⟨⟨-, rfl⟩, ((rfl | rfl) | rfl) | rfl⟩ := hntl <;> decide
  · rfl

theorem encode_of_decodeC2Jump {c : Cfg} {p : CParts} {i : Instr} (hop : p.op = 2) (hf3 : p.f3.toNat = 4)
    (h : decodeC2Jump c p = some i) : encode i = p.word := by
  unfold decodeC2Jump at h
  split_ifs at h with hb12 hr2 hr2 hr1
  · cases h
    exact congrArg CParts.word (encCr_eq hop hf3 hb12 rfl hr2)
  · cases h
    exact congrArg CParts.word (encCr_eq hop hf3 hb12 rfl rfl)
  all_goals have hb12 : p.b12 = 1 := by have := p.b12.isLt; bv_omega
  · cases h
    rw [← encCr_eq (f3 := 4) hop hf3 hb12 hr1 hr2]
    decide
  · cases h
    exact congrArg CParts.word (encCr_eq hop hf3 hb12 rfl hr2)
  · cases h
    rw [encode_decodeCAdd, encCr_eq (f3 := 4) hop hf3 hb12 rfl rfl]

theorem encode_of_decodeC2 {c : Cfg} {p : CParts} {i : Instr} (hop : p.op = 2) (h : decodeC2 c p = some i) :
    encode i = p.word := by
  unfold decodeC2 at h
  split at h
  case h_1 =>
    cases h
    exact congrArg CParts.word (encCi_eq hop (by simp [*]))
  case h_2 =>
    cases h
    exact congrArg CParts.word (encCldsp_eq hop (by simp [*]))
  case h_3 =>
    cases h
    exact congrArg CParts.word (encClwsp_eq hop (by simp [*]))
  case h_4 =>
    split at h
    all_goals cases h
    case h_1 => exact congrArg CParts.word (encClwsp_eq hop (by simp [*]))
    case h_2 => exact congrArg CParts.word (encCldsp_eq hop (by simp [*]))
  case h_5 hf3 => exact encode_of_decodeC2Jump hop hf3 h
  case h_6 =>
    cases h
    exact congrArg CParts.word (encCsdsp_eq hop (by simp [*]))
  case h_7 =>
    cases h
    exact congrArg CParts.word (encCswsp_eq hop (by simp [*]))
  case h_8 h0 h1 h2 h3 h4 h5 h6 =>
    have hlt : p.f3.toNat < 8 := p.f3.isLt
    have hf3 : p.f3.toNat = 7 := by
      simp only [imp_false] at h0 h1 h2 h3 h4 h5 h6
      omega
    split at h
    all_goals cases h
    case h_1 => exact congrArg CParts.word (encCswsp_eq hop (by simp [*]))
    case h_2 => exact congrArg CParts.word (encCsdsp_eq hop (by simp [*]))

/-- What a parcel is decoded to encodes to the parcel, in the low half of a word. -/
theorem encode_of_decode16 {c : Cfg} {p : CParts} {i : Instr} (h : decode16 c p = some i) : encode i = p.word := by
  unfold decode16 at h
  split at h
  case h_1 hop => exact encode_of_decodeC0 (BitVec.eq_of_toNat_eq hop) h
  case h_2 hop => exact encode_of_decodeC1 (BitVec.eq_of_toNat_eq hop) h
  case h_3 hop => exact encode_of_decodeC2 (BitVec.eq_of_toNat_eq hop) h
  case h_4 => cases h

/-- What a decoded word was: a parcel or a 32-bit word that matched an admitted row. -/
theorem decode_eq_instr {c : Cfg} {w : InstrWord} {i : Instr} (h : decode c w = .instr i) :
    i.wf c = true ∧
      ((isCompressed w = true ∧ decode16 c (cpartsOf (w.setWidth 16)) = some i) ∨
        (isCompressed w = false ∧ decode32 c (partsOf w) = some i)) := by
  unfold decode at h
  split_ifs at h with hc hz hl ho
  · obtain ⟨hrow, hwf⟩ := admitted_eq_instr h
    exact ⟨hwf, .inl ⟨hc, hrow⟩⟩
  · obtain ⟨hrow, hwf⟩ := admitted_eq_instr h
    exact ⟨hwf, .inr ⟨Bool.eq_false_of_not_eq_true hc, hrow⟩⟩

/-- Settles O49: in each opcode the row matches by the fields its encoding fixes; what `wf` asks of the operands tells
apart the rows that share a word. -/
theorem decodeOfEncode : Obligations.DecodeOfEncode := decode_encode

/-- Settles O50: each matched row is rebuilt from the fields it was matched by. -/
theorem encodeOfDecode : Obligations.EncodeOfDecode := by
  intro c w i h
  obtain ⟨hwf, ⟨hc, hrow⟩ | ⟨hc, hrow⟩⟩ := decode_eq_instr h
  · rw [if_pos hc, encode_of_decode16 hrow, CParts.word, parcel_cpartsOf]
    exact ⟨hwf, rfl⟩
  · rw [hc, encode_of_decode32 hrow, word_partsOf]
    exact ⟨hwf, rfl⟩

end Sys2Proof
end
section
/-! PROOFS. What any instruction can do, said once: `exec_ends` gives every instruction one of three ends, a trap, a
retirement after one of a few changes of the state (`Effect`), or a jump. What holds of every instruction is proved from
it. -/

namespace Sys2Proof.Machine

/-! ### Classes of instructions -/

def IsFenceI (i : Instr) : Prop := ∃ imm rs1 rd, i = .fenceI imm rs1 rd

def IsLr (i : Instr) : Prop := ∃ rd rs1 aq rl, i = .lrW rd rs1 aq rl ∨ i = .lrD rd rs1 aq rl

def IsSc (i : Instr) : Prop := ∃ rd rs1 rs2 aq rl, i = .scW rd rs1 rs2 aq rl ∨ i = .scD rd rs1 rs2 aq rl

def IsCsr (i : Instr) : Prop :=
  (∃ rd a rs1, i = .csrrw rd a rs1 ∨ i = .csrrs rd a rs1 ∨ i = .csrrc rd a rs1) ∨
  ∃ rd a uimm, i = .csrrwi rd a uimm ∨ i = .csrrsi rd a uimm ∨ i = .csrrci rd a uimm

/-- The base register, the offset and the size of the access of a load, a store or an AMO: the accesses that may be
several memory operations. -/
def multiAccess (i : Instr) : Option (RegNum × Word × Nat) :=
  match i with
  | .lb _ b imm | .lbu _ b imm | .sb _ b imm => some (b, imm12 imm, 1)
  | .lh _ b imm | .lhu _ b imm | .sh _ b imm | .flh _ b imm | .fsh _ b imm => some (b, imm12 imm, 2)
  | .lw _ b imm | .lwu _ b imm | .sw _ b imm | .flw _ b imm | .fsw _ b imm => some (b, imm12 imm, 4)
  | .ld _ b imm | .sd _ b imm | .fld _ b imm | .fsd _ b imm => some (b, imm12 imm, 8)
  | .flq _ b imm | .fsq _ b imm => some (b, imm12 imm, 16)
  | .cLw _ b u | .cSw _ b u | .cFlw _ b u | .cFsw _ b u => some (cReg b, cOffW u, 4)
  | .cLd _ b u | .cSd _ b u | .cFld _ b u | .cFsd _ b u => some (cReg b, cOffD u, 8)
  | .cLwsp _ u | .cSwsp _ u | .cFlwsp _ u | .cFswsp _ u => some (2, cOffWsp u, 4)
  | .cLdsp _ u | .cSdsp _ u | .cFldsp _ u | .cFsdsp _ u => some (2, cOffDsp u, 8)
  | .amoswapW _ b _ _ _ | .amoaddW _ b _ _ _ | .amoxorW _ b _ _ _ | .amoandW _ b _ _ _ | .amoorW _ b _ _ _
  | .amominW _ b _ _ _ | .amomaxW _ b _ _ _ | .amominuW _ b _ _ _ | .amomaxuW _ b _ _ _ => some (b, 0, 4)
  | .amoswapD _ b _ _ _ | .amoaddD _ b _ _ _ | .amoxorD _ b _ _ _ | .amoandD _ b _ _ _ | .amoorD _ b _ _ _
  | .amominD _ b _ _ _ | .amomaxD _ b _ _ _ | .amominuD _ b _ _ _ | .amomaxuD _ b _ _ _ => some (b, 0, 8)
  | _ => none

/-- The length of an instruction: 4, or 2 if only configurations with C have it. -/
def LengthOf (i : Instr) (len : Nat) : Prop :=
  len = 4 ∨ (len = 2 ∧ ∀ c, i.available c = true → c.ext.c = true)

/-! ### The ends of an instruction -/

/-- What an instruction may have changed when it retires, before the pc and `instret` move. -/
inductive Effect (i : Instr) (s : State) : State → Prop
  | nothing : Effect i s s
  | integer (rd : RegNum) (v : Word) : Effect i s (writeX rd v s)
  | float (fmt : Fmt) (rd : RegNum) (v : FpBits fmt) (fl : FpFlags) : Effect i s (accrue fl (writeFp fmt rd v s))
  | integerFlags (rd : RegNum) (v : Word) (fl : FpFlags) : Effect i s (accrue fl (writeX rd v s))
  | boxed (fmt : Fmt) (rd : RegNum) (v : FpBits fmt) : Effect i s (writeFBoxed fmt rd v s)
  | fence (hi : IsFenceI i) : Effect i s { s with stale := [] }
  | csr (hi : IsCsr i) (rd : RegNum) (r : CsrName) (old v : Word) : Effect i s (writeX rd old (csrWrite r v s))
  | load {base off n} (hi : multiAccess i = some (base, off, n)) (rd : RegNum) (v : Word) :
      Effect i s (writeX rd v (readAccess (effAddr base off s) n s).2)
  | loadFloat {base off n} (hi : multiAccess i = some (base, off, n)) (fmt : Fmt) (rd : RegNum) (v : FpBits fmt) :
      Effect i s (writeFBoxed fmt rd v (readAccess (effAddr base off s) n s).2)
  | store {base off n} (hi : multiAccess i = some (base, off, n)) {w : Nat} (v : BitVec w) :
      Effect i s (writeAccess 0 (effAddr base off s) n v.toNat s)
  | amo {base off n} (hi : multiAccess i = some (base, off, n)) (rd : RegNum) (v : Word) {w : Nat}
      (new : BitVec w) :
      Effect i s (writeX rd v (writeAccess n (effAddr base off s) n new.toNat (readAccess (effAddr base off s) n s).2))
  | reserve (hi : IsLr i) (rd : RegNum) (v a : Word) (n : Nat) :
      Effect i s { writeX rd v (noteRead a n s) with reservation := some (reservationFor s.cfg a n) }
  | stored (hi : IsSc i) (rd : RegNum) (a : Word) {n w : Nat} (hn : n ≤ 8) (v : BitVec w) :
      Effect i s { writeX rd 0 (memWrite a n v.toNat s) with reservation := none, watch := none }
  | failed (hi : IsSc i) (rd : RegNum) (a : Word) (n : Nat) :
      Effect i s { writeX rd Config.scFailCode s with reservation := none, watch := watchAfterFailure a n s }

/-- How an instruction ends. A misaligned target is the information of the exception, and even if the pc is. -/
inductive Ends (i : Instr) (s : State) : Res → Prop
  | trap (e : Exn) (info : Word)
      (h : e = .instrAddrMisaligned → targetMisaligned s.cfg info = true ∧
        ((curPc s).toNat % 2 = 0 → info.toNat % 2 = 0)) : Ends i s (.next (trapped e info s))
  | retired {len : Nat} {u : State} (hlen : LengthOf i len) (hu : Effect i s u) : Ends i s (retire len u)
  | jumped (target : Word) (rd : RegNum) (v : Word) (haligned : targetMisaligned s.cfg target = false)
      (hinside : target.toNat < 2 ^ s.cfg.xlen.bits) : Ends i s (jumpTo target (writeX rd v s))

/-! ### The shared shapes -/

section Shapes

variable {i : Instr} {s : State} {len : Nat}

theorem Ends.trap_of_ne {e : Exn} {info : Word} (h : e ≠ .instrAddrMisaligned) :
    Ends i s (.next (trapped e info s)) := .trap e info fun he => absurd he h

theorem accessCheck_ne_misalignedTarget {c : Cfg} {k : Access} {a : Word} {n : Nat} {x : Exn}
    (h : accessCheck c k a n = some x) : x ≠ .instrAddrMisaligned := by
  have hf : ∀ k, accessFaultOf k ≠ .instrAddrMisaligned := fun k => by cases k <;> simp [accessFaultOf]
  have hm : ∀ k, misalignedOf k ≠ .instrAddrMisaligned := fun k => by cases k <;> simp [misalignedOf]
  have hp : ∀ p : Bool, (if p then none else some (accessFaultOf k)) = some x → x ≠ .instrAddrMisaligned := by
    intro p h
    cases p with
    | true => cases h
    | false => cases h; exact hf k
  unfold accessCheck at h
  dsimp only at h
  split at h
  · cases h; exact hf k
  · split at h
    · exact hp _ h
    · split at h
      · exact hp _ h
      · cases h; exact hm k
      · cases h; exact hf k

theorem truncX_mod_two (c : Xlen) (v : Word) : (truncX c v).toNat % 2 = v.toNat % 2 := by
  rw [truncX_toNat]
  exact Nat.mod_mod_of_dvd _ (Dvd.intro_left (2 ^ (c.bits - 1)) (by cases c <;> decide))

/-- A target relative to an even pc by an even offset is even. -/
theorem target_even {off : Word} (hoff : off.toNat % 2 = 0) (hpc : (curPc s).toNat % 2 = 0) :
    (truncX s.cfg.xlen (curPc s + off)).toNat % 2 = 0 := by
  rw [truncX_mod_two, BitVec.toNat_add]
  omega

theorem append_zero_even {n : Nat} (v : BitVec n) : (v ++ 0#1).toNat % 2 = 0 := by
  rw [BitVec.toNat_append, BitVec.toNat_zero, Nat.or_zero, Nat.shiftLeft_eq]
  exact Nat.mul_mod_left ..

/-- A word is even if its lowest bit is clear. -/
theorem even_iff_getLsbD {n : Nat} (v : BitVec n) : v.toNat % 2 = 0 ↔ v.getLsbD 0 = false := by
  simp [BitVec.getLsbD, Nat.testBit_zero]

theorem signExtend_even {n : Nat} {v : BitVec (n + 1)} (h : v.toNat % 2 = 0) : (v.signExtend 64).toNat % 2 = 0 := by
  rw [even_iff_getLsbD] at h ⊢
  rw [BitVec.getLsbD_signExtend, if_pos n.succ_pos, h, Bool.and_false]

theorem and_not_one_even (v : Word) : (v &&& ~~~1).toNat % 2 = 0 := by
  rw [even_iff_getLsbD, BitVec.getLsbD_and]
  exact Bool.and_false _

theorem retire_writeX_ends (hlen : LengthOf i len) (rd : RegNum) (v : Word) : Ends i s (retire len (writeX rd v s)) :=
  .retired hlen (.integer rd v)

theorem jumpAndLink_ends (rd : RegNum) {target : Word}
    (heven : (curPc s).toNat % 2 = 0 → target.toNat % 2 = 0) (hinside : target.toNat < 2 ^ s.cfg.xlen.bits) :
    Ends i s (jumpAndLink len rd target s) := by
  unfold jumpAndLink
  split
  · rename_i h
    exact .trap _ _ fun _ => ⟨h, heven⟩
  · rename_i h
    exact .jumped _ _ _ (by simpa using h) hinside

theorem jumpRelative_ends (rd : RegNum) {off : Word} (hoff : off.toNat % 2 = 0) :
    Ends i s (jumpRelative len rd off s) :=
  jumpAndLink_ends rd (target_even hoff) (truncX_lt _ _)

theorem jumpRegister_ends (rd rs1 : RegNum) (off : Word) : Ends i s (jumpRegister len rd rs1 off s) :=
  jumpAndLink_ends rd (fun _ => and_not_one_even _)
    (Nat.lt_of_le_of_lt (BitVec.toNat_and .. ▸ Nat.and_le_left) (truncX_lt _ _))

theorem branch_ends (hlen : LengthOf i len) (cmp : CmpOp) (rs1 rs2 : RegNum) {off : Word} (hoff : off.toNat % 2 = 0) :
    Ends i s (branch len cmp rs1 rs2 off s) := by
  unfold branch
  split
  · dsimp only
    split
    · rename_i h
      exact .trap _ _ fun _ => ⟨h, target_even hoff⟩
    · rename_i h
      have := Ends.jumped (i := i) (s := s) (truncX s.cfg.xlen (curPc s + off)) 0 0 (by simpa using h) (truncX_lt _ _)
      rwa [writeX_zero] at this
  · exact .retired hlen .nothing

theorem loadX_ends (hlen : LengthOf i len) {n : Nat} {rs1 : RegNum} {off : Word}
    (hi : multiAccess i = some (rs1, off, n)) (e : LoadExt) (rd : RegNum) : Ends i s (loadX len n e rd rs1 off s) := by
  obtain ⟨x, hx, h⟩ | ⟨-, h⟩ := loadX_cases len n e rd rs1 off s
  · exact h ▸ .trap_of_ne (accessCheck_ne_misalignedTarget hx)
  · exact h ▸ .retired hlen (.load hi rd _)

theorem storeX_ends (hlen : LengthOf i len) {n : Nat} {rs1 : RegNum} {off : Word}
    (hi : multiAccess i = some (rs1, off, n)) (rs2 : RegNum) : Ends i s (storeX len n rs2 rs1 off s) := by
  obtain ⟨x, hx, h⟩ | ⟨-, h⟩ := storeX_cases len n rs2 rs1 off s
  · exact h ▸ .trap_of_ne (accessCheck_ne_misalignedTarget hx)
  · exact h ▸ .retired hlen (.store hi _)

theorem loadF_ends (hlen : LengthOf i len) {fmt : Fmt} {rs1 : RegNum} {off : Word}
    (hi : multiAccess i = some (rs1, off, fmt.width / 8)) (rd : RegNum) : Ends i s (loadF len fmt rd rs1 off s) := by
  obtain ⟨x, hx, h⟩ | ⟨-, h⟩ := loadF_cases len fmt rd rs1 off s
  · exact h ▸ .trap_of_ne (accessCheck_ne_misalignedTarget hx)
  · exact h ▸ .retired hlen (.loadFloat hi fmt rd _)

theorem storeF_ends (hlen : LengthOf i len) {fmt : Fmt} {rs1 : RegNum} {off : Word}
    (hi : multiAccess i = some (rs1, off, fmt.width / 8)) (rs2 : RegNum) : Ends i s (storeF len fmt rs2 rs1 off s) := by
  obtain ⟨x, hx, h⟩ | ⟨-, h⟩ := storeF_cases len fmt rs2 rs1 off s
  · exact h ▸ .trap_of_ne (accessCheck_ne_misalignedTarget hx)
  · exact h ▸ .retired hlen (.store hi _)

theorem amo_ends {n : Nat} {rs1 : RegNum} (hi : multiAccess i = some (rs1, 0, n)) (op : AmoOp) (rd rs2 : RegNum) :
    Ends i s (amo op n rd rs1 rs2 s) := by
  obtain ⟨x, hx, h⟩ | ⟨-, h⟩ := amo_cases op n rd rs1 rs2 s
  · exact h ▸ .trap_of_ne (accessCheck_ne_misalignedTarget hx)
  · exact h ▸ .retired (.inl rfl) (.amo hi rd _ _)

theorem loadReserved_ends (hi : IsLr i) (n : Nat) (rd rs1 : RegNum) : Ends i s (loadReserved n rd rs1 s) := by
  obtain ⟨x, hx, h⟩ | ⟨-, h⟩ := loadReserved_cases n rd rs1 s
  · exact h ▸ .trap_of_ne (accessCheck_ne_misalignedTarget hx)
  · exact h ▸ .retired (.inl rfl) (.reserve hi rd _ _ n)

theorem storeConditional_ends (hi : IsSc i) {n : Nat} (hn : n ≤ 8) (rd rs1 rs2 : RegNum) :
    Ends i s (storeConditional n rd rs1 rs2 s) := by
  obtain ⟨x, hx, h⟩ | ⟨-, -, h⟩ | ⟨-, -, h⟩ := storeConditional_cases n rd rs1 rs2 s
  · exact h ▸ .trap_of_ne (accessCheck_ne_misalignedTarget hx)
  · exact h ▸ .retired (.inl rfl) (.stored hi rd _ hn _)
  · exact h ▸ .retired (.inl rfl) (.failed hi rd _ n)

theorem illegal_ends (bits : InstrWord) : Ends i s (illegal bits s) := illegal_eq bits s ▸ .trap_of_ne (by decide)

theorem csrAccess_ends (hi : IsCsr i) (csr : BitVec 12) (rd : RegNum) (update : Option (Word → Word))
    (bits : InstrWord) : Ends i s (csrAccess csr rd update bits s) := by
  obtain ⟨-, h⟩ | ⟨r, -, -, h⟩ := csrAccess_cases csr rd update bits s
  · exact h ▸ illegal_ends bits
  · rw [h]
    cases update with
    | none => exact retire_writeX_ends (.inl rfl) _ _
    | some u => exact .retired (.inl rfl) (.csr hi rd r _ _)

theorem withRm_ends (rm : BitVec 3) (bits : InstrWord) {body : Rm → Res} (hbody : ∀ m, Ends i s (body m)) :
    Ends i s (withRm rm bits s body) := by
  obtain ⟨-, h⟩ | ⟨m, -, h⟩ := withRm_cases rm bits s body
  · exact h ▸ illegal_ends bits
  · exact h ▸ hbody m

theorem finishFp_ends (fmt : Fmt) (rd : RegNum) (r : FpRes fmt) : Ends i s (finishFp fmt rd r s) :=
  .retired (.inl rfl) (.float fmt rd r.1 r.2)

theorem finishInt_ends (rd : RegNum) (v : Word) (fl : FpFlags) : Ends i s (finishInt rd v fl s) :=
  .retired (.inl rfl) (.integerFlags rd v fl)

end Shapes

/-- Every instruction ends in one of these ways. -/
theorem exec_ends (i : Instr) (s : State) : Ends i s (exec i s) := by
  have h4 : ∀ i, LengthOf i 4 := fun i => .inl rfl
  cases i
  case lui | auipc => exact retire_writeX_ends (h4 _) _ _
  case jal => exact jumpRelative_ends _ (signExtend_even (append_zero_even _))
  case cJal | cJ => exact jumpRelative_ends _ (signExtend_even (append_zero_even _))
  case jalr | cJr | cJalr => exact jumpRegister_ends _ _ _
  case beq | bne | blt | bge | bltu | bgeu => exact branch_ends (h4 _) _ _ _ (signExtend_even (append_zero_even _))
  case cBeqz | cBnez =>
    exact branch_ends (.inr ⟨rfl, fun c => by simp [Instr.available]⟩) _ _ _ (signExtend_even (append_zero_even _))
  case lb | lh | lw | lbu | lhu | lwu | ld => exact loadX_ends (h4 _) rfl _ _
  case cLw | cLd | cLwsp | cLdsp => exact loadX_ends (.inr ⟨rfl, fun c => by simp +contextual [Instr.available]⟩) rfl _ _
  case sb | sh | sw | sd => exact storeX_ends (h4 _) rfl _
  case cSw | cSd | cSwsp | cSdsp => exact storeX_ends (.inr ⟨rfl, fun c => by simp +contextual [Instr.available]⟩) rfl _
  case flw | fld | flq | flh => exact loadF_ends (h4 _) rfl _
  case cFld | cFlw | cFldsp | cFlwsp =>
    exact loadF_ends (.inr ⟨rfl, fun c => by simp +contextual [Instr.available]⟩) rfl _
  case fsw | fsd | fsq | fsh => exact storeF_ends (h4 _) rfl _
  case cFsd | cFsw | cFsdsp | cFswsp =>
    exact storeF_ends (.inr ⟨rfl, fun c => by simp +contextual [Instr.available]⟩) rfl _
  case addi | slti | sltiu | xori | ori | andi | slli | srli | srai | add | sub | sll | slt | sltu | xor | srl | sra |
      or | and | mul | mulh | mulhsu | mulhu | div | divu | rem | remu | addiw | slliw | srliw | sraiw | addw | subw |
      sllw | srlw | sraw | mulw | divw | divuw | remw | remuw | fmvXW | fmvXD | fmvXH =>
    exact retire_writeX_ends (h4 _) _ _
  case cAddi4spn | cAddi | cLi | cAddi16sp | cLui | cSrli | cSrai | cAndi | cSlli | cSub | cXor | cOr | cAnd | cMv |
      cAdd | cAddiw | cSubw | cAddw =>
    exact retire_writeX_ends (.inr ⟨rfl, fun c => by simp +contextual [Instr.available]⟩) _ _
  case fence | fenceTso | pause | ntlP1 | ntlPall | ntlS1 | ntlAll => exact .retired (h4 _) .nothing
  case cNop | cNtlP1 | cNtlPall | cNtlS1 | cNtlAll =>
    exact .retired (.inr ⟨rfl, fun c => by simp +contextual [Instr.available]⟩) .nothing
  case ecall | ebreak | cEbreak => exact .trap_of_ne (by decide)
  case fenceI => exact .retired (h4 _) (.fence ⟨_, _, _, rfl⟩)
  case csrrw => exact csrAccess_ends (.inl ⟨_, _, _, .inl rfl⟩) _ _ _ _
  case csrrs => exact csrAccess_ends (.inl ⟨_, _, _, .inr (.inl rfl)⟩) _ _ _ _
  case csrrc => exact csrAccess_ends (.inl ⟨_, _, _, .inr (.inr rfl)⟩) _ _ _ _
  case csrrwi => exact csrAccess_ends (.inr ⟨_, _, _, .inl rfl⟩) _ _ _ _
  case csrrsi => exact csrAccess_ends (.inr ⟨_, _, _, .inr (.inl rfl)⟩) _ _ _ _
  case csrrci => exact csrAccess_ends (.inr ⟨_, _, _, .inr (.inr rfl)⟩) _ _ _ _
  case lrW => exact loadReserved_ends ⟨_, _, _, _, .inl rfl⟩ _ _ _
  case lrD => exact loadReserved_ends ⟨_, _, _, _, .inr rfl⟩ _ _ _
  case scW => exact storeConditional_ends ⟨_, _, _, _, _, .inl rfl⟩ (by decide) _ _ _
  case scD => exact storeConditional_ends ⟨_, _, _, _, _, .inr rfl⟩ (by decide) _ _ _
  case amoswapW | amoaddW | amoxorW | amoandW | amoorW | amominW | amomaxW | amominuW | amomaxuW | amoswapD | amoaddD |
      amoxorD | amoandD | amoorD | amominD | amomaxD | amominuD | amomaxuD => exact amo_ends rfl _ _ _
  case fmaddS | fmsubS | fnmsubS | fnmaddS | fmaddD | fmsubD | fnmsubD | fnmaddD | fmaddQ | fmsubQ | fnmsubQ |
      fnmaddQ | fmaddH | fmsubH | fnmsubH | fnmaddH | faddS | fsubS | fmulS | fdivS | faddD | fsubD | fmulD | fdivD |
      faddQ | fsubQ | fmulQ | fdivQ | faddH | fsubH | fmulH | fdivH | fsqrtS | fsqrtD | fsqrtQ | fsqrtH | fcvtSW |
      fcvtSWu | fcvtSL | fcvtSLu | fcvtDW | fcvtDWu | fcvtDL | fcvtDLu | fcvtQW | fcvtQWu | fcvtQL | fcvtQLu | fcvtHW |
      fcvtHWu | fcvtHL | fcvtHLu | fcvtSD | fcvtDS | fcvtSQ | fcvtQS | fcvtDQ | fcvtQD | fcvtSH | fcvtHS | fcvtDH |
      fcvtHD | fcvtQH | fcvtHQ => exact withRm_ends _ _ fun _ => finishFp_ends _ _ _
  case fsgnjS | fsgnjnS | fsgnjxS | fminS | fmaxS | fsgnjD | fsgnjnD | fsgnjxD | fminD | fmaxD | fsgnjQ | fsgnjnQ |
      fsgnjxQ | fminQ | fmaxQ | fsgnjH | fsgnjnH | fsgnjxH | fminH | fmaxH => exact finishFp_ends _ _ _
  case fcvtWS | fcvtWuS | fcvtLS | fcvtLuS | fcvtWD | fcvtWuD | fcvtLD | fcvtLuD | fcvtWQ | fcvtWuQ | fcvtLQ |
      fcvtLuQ | fcvtWH | fcvtWuH | fcvtLH | fcvtLuH => exact withRm_ends _ _ fun _ => finishInt_ends _ _ _
  case feqS | fltS | fleS | feqD | fltD | fleD | feqQ | fltQ | fleQ | feqH | fltH | fleH | fclassS | fclassD | fclassQ |
      fclassH => exact finishInt_ends _ _ _
  case fmvWX | fmvDX | fmvHX => exact .retired (h4 _) (.boxed _ _ _)

end Sys2Proof.Machine
end
section
/-! PROOFS. What holds of every instruction: it retires or traps (O57), with C no target is misaligned (O10), flags only
accrue (O25), only LR and SC change the reservation (O21), and what may still be fetched after it (O46). -/

namespace Sys2Proof.Machine

/-! ### What an effect leaves unchanged -/

section Frame

variable {i : Instr} {s u : State}

@[simp] theorem csrWrite_cfg (r : CsrName) (v : Word) (s : State) : (csrWrite r v s).cfg = s.cfg := by cases r <;> rfl
@[simp] theorem csrWrite_x (r : CsrName) (v : Word) (s : State) : (csrWrite r v s).x = s.x := by cases r <;> rfl
@[simp] theorem csrWrite_pc (r : CsrName) (v : Word) (s : State) : (csrWrite r v s).pc = s.pc := by cases r <;> rfl
@[simp] theorem csrWrite_f (r : CsrName) (v : Word) (s : State) : (csrWrite r v s).f = s.f := by cases r <;> rfl
@[simp] theorem csrWrite_cycle (r : CsrName) (v : Word) (s : State) : (csrWrite r v s).cycle = s.cycle := by
  cases r <;> rfl
@[simp] theorem csrWrite_time (r : CsrName) (v : Word) (s : State) : (csrWrite r v s).time = s.time := by
  cases r <;> rfl
@[simp] theorem csrWrite_instret (r : CsrName) (v : Word) (s : State) : (csrWrite r v s).instret = s.instret := by
  cases r <;> rfl
@[simp] theorem csrWrite_hpm (r : CsrName) (v : Word) (s : State) : (csrWrite r v s).hpm = s.hpm := by cases r <;> rfl
@[simp] theorem csrWrite_reservation (r : CsrName) (v : Word) (s : State) :
    (csrWrite r v s).reservation = s.reservation := by cases r <;> rfl
@[simp] theorem csrWrite_watch (r : CsrName) (v : Word) (s : State) : (csrWrite r v s).watch = s.watch := by
  cases r <;> rfl
@[simp] theorem csrWrite_mem (r : CsrName) (v : Word) (s : State) : (csrWrite r v s).mem = s.mem := by cases r <;> rfl
@[simp] theorem csrWrite_stale (r : CsrName) (v : Word) (s : State) : (csrWrite r v s).stale = s.stale := by
  cases r <;> rfl
@[simp] theorem csrWrite_trap (r : CsrName) (v : Word) (s : State) : (csrWrite r v s).trap = s.trap := by
  cases r <;> rfl
@[simp] theorem csrWrite_io (r : CsrName) (v : Word) (s : State) : (csrWrite r v s).io = s.io := by cases r <;> rfl
@[simp] theorem csrWrite_draw (r : CsrName) (v : Word) (s : State) : (csrWrite r v s).draw = s.draw := by
  cases r <;> rfl

theorem Effect.cfg_eq (h : Effect i s u) : u.cfg = s.cfg := by cases h <;> simp
theorem Effect.pc_eq (h : Effect i s u) : u.pc = s.pc := by cases h <;> simp
theorem Effect.instret_eq (h : Effect i s u) : u.instret = s.instret := by cases h <;> simp
theorem Effect.trap_eq (h : Effect i s u) : u.trap = s.trap := by cases h <;> simp
theorem Effect.draw_eq (h : Effect i s u) : u.draw = s.draw := by cases h <;> simp

theorem Effect.counters (h : Effect i s u) : KeptCounters s u := by
  cases h <;> exact ⟨by simp, by simp, by simp⟩

/-- No effect but a CSR write touches `frm`, and none clears a flag. -/
theorem Effect.flags (h : Effect i s u) (hi : ¬ IsCsr i) : u.frm = s.frm ∧ s.fflags &&& u.fflags = s.fflags := by
  have hor : ∀ fl : FpFlags, s.fflags &&& (s.fflags ||| fl) = s.fflags := fun fl => by ext; simp +contextual
  cases h with
  | csr hcsr => exact absurd hcsr hi
  | float | integerFlags => exact ⟨by simp, by simpa using hor _⟩
  | _ => exact ⟨by simp, by simp⟩

end Frame

/-- Settles O57: the three ends of an instruction. -/
theorem everyInstructionRetiresOrTraps : Obligations.EveryInstructionRetiresOrTraps := by
  intro i s
  have h := exec_ends i s
  generalize exec i s = r at h
  cases h with
  | trap e info => exact ⟨_, rfl, .inr ⟨e, info, rfl⟩⟩
  | retired hlen hu =>
    obtain ⟨hcycle, htime, hhpm⟩ := hu.counters
    exact ⟨_, retire_eq _ _, .inl ⟨congrArg (· + 1) hu.instret_eq, hu.trap_eq, hcycle, htime, hhpm⟩⟩
  | jumped target rd v => exact ⟨_, jumpTo_eq _ _, .inl (by simp)⟩

/-- Settles O10: the target of a trap is even, which with C is aligned. -/
theorem noMisalignedTargetWithC : Obligations.NoMisalignedTargetWithC := by
  intro i s t r hc hpc htrap hnext ht
  have h := exec_ends i s
  rw [hnext] at h
  generalize hres : Host.Outcome.next t = res at h
  cases h with
  | trap e info he =>
    cases hres
    simp only [trapped_trap, Option.some.injEq] at ht
    subst ht
    rintro rfl
    obtain ⟨hmis, heven⟩ := he rfl
    simp [targetMisaligned, ialignBytes, hc, heven hpc] at hmis
  | retired hlen hu =>
    cases hres
    exact absurd ((hu.trap_eq.trans htrap).symm.trans ht) nofun
  | jumped target rd v =>
    cases hres
    exact absurd (htrap.symm.trans ((writeX_trap rd v s).symm.trans ht)) nofun

/-- Settles O25: by the effects; a trap and a jump leave the flags alone. -/
theorem flagsOnlyAccrue : Obligations.FlagsOnlyAccrue := by
  intro i s t hnext hreg himm
  have hcsr : ¬ IsCsr i := by
    rintro (⟨rd, a, rs1, rfl | rfl | rfl⟩ | ⟨rd, a, uimm, rfl | rfl | rfl⟩)
    · exact (hreg rd a rs1).1 rfl
    · exact (hreg rd a rs1).2.1 rfl
    · exact (hreg rd a rs1).2.2 rfl
    · exact (himm rd a uimm).1 rfl
    · exact (himm rd a uimm).2.1 rfl
    · exact (himm rd a uimm).2.2 rfl
  have h := exec_ends i s
  rw [hnext] at h
  generalize hres : Host.Outcome.next t = res at h
  cases h with
  | trap e info => cases hres; exact ⟨rfl, BitVec.and_self⟩
  | retired hlen hu => cases hres; exact hu.flags hcsr
  | jumped target rd v => cases hres; exact ⟨by simp, by simp⟩

/-! ### What the memory operations of an access can do besides -/

/-- What is listed stays listed, and the value that a changed byte of main memory had is listed. -/
def StaleGrows (s t : State) : Prop :=
  (∀ c ∈ s.stale, c ∈ t.stale) ∧
  ∀ a, isIo s.cfg a = false → readByte t a ≠ readByte s a → (a, readByte s a) ∈ t.stale

theorem StaleGrows.of_eq {s t : State} (hm : t.mem = s.mem) (hs : t.stale = s.stale) (hc : t.cfg = s.cfg)
    (hd : t.draw = s.draw) : StaleGrows s t :=
  ⟨fun _ h => hs ▸ h, fun a _ h => absurd (readByte_congr hm hc hd a) h⟩

theorem StaleGrows.trans {s t u : State} (hst : StaleGrows s t) (htu : StaleGrows t u) (hc : t.cfg = s.cfg) :
    StaleGrows s u := by
  refine ⟨fun c h => htu.1 c (hst.1 c h), fun a hio hne => ?_⟩
  by_cases h : readByte t a = readByte s a
  · rw [← h] at hne ⊢
    exact htu.2 a (hc ▸ hio) hne
  · exact htu.1 _ (hst.2 a hio h)

theorem StaleAfter.grows {s t : State} {p : Host.Cell → Prop} (h : StaleAfter s t p) : StaleGrows s t := ⟨h.1, h.2.1⟩

/-- What the memory operations of a load, a store or an AMO, and the turns of the environment agent between them, can do
to the reservation, the loop and what may be fetched. -/
structure MemoryEffect (s u : State) : Prop where
  cfg : u.cfg = s.cfg
  reservation : u.reservation = s.reservation ∨ (s.cfg.agentWrites = true ∧ u.reservation = none)
  watch : u.watch = s.watch ∨ u.watch = none
  stale : StaleGrows s u

namespace MemoryEffect

theorem of_eq {s u : State} (hm : u.mem = s.mem) (hs : u.stale = s.stale) (hr : u.reservation = s.reservation)
    (hw : u.watch = s.watch) (hc : u.cfg = s.cfg) (hd : u.draw = s.draw) : MemoryEffect s u :=
  ⟨hc, .inl hr, .inl hw, .of_eq hm hs hc hd⟩

theorem trans {s t u : State} (hst : MemoryEffect s t) (htu : MemoryEffect t u) : MemoryEffect s u := by
  refine ⟨htu.cfg.trans hst.cfg, ?_, ?_, hst.stale.trans htu.stale hst.cfg⟩
  · rcases htu.reservation with h | ⟨ha, h⟩
    · rw [h]
      exact hst.reservation
    · exact .inr ⟨hst.cfg ▸ ha, h⟩
  · rcases htu.watch with h | h
    · rw [h]
      exact hst.watch
    · exact .inr h

end MemoryEffect

theorem bind_reservationAfter (draw turn : Nat) (l : List Host.Cell) (o : Option Reservation) :
    o.bind (reservationAfter draw turn l) = o ∨ o.bind (reservationAfter draw turn l) = none := by
  cases o with
  | none => exact .inl rfl
  | some r =>
    rw [Option.bind_some]
    unfold reservationAfter
    split
    · exact .inr rfl
    · split
      · exact .inr rfl
      · exact .inl rfl

theorem filter_eq_or_none {α : Type} (p : α → Bool) (o : Option α) : o.filter p = o ∨ o.filter p = none := by
  cases o with
  | none => exact .inl rfl
  | some a => cases h : p a <;> simp [Option.filter, h]

theorem agentTurn_effect (turn : Nat) (s : State) : MemoryEffect s (agentTurn turn s) := by
  unfold agentTurn
  split
  · rename_i h
    refine ⟨by simp, ?_, filter_eq_or_none _ _, ?_⟩
    · exact (bind_reservationAfter ..).imp id fun hn => ⟨h, hn⟩
    · exact ((storeBytes_staleAfter _ s).of_eq rfl rfl rfl rfl).grows
  · exact .of_eq rfl rfl rfl rfl rfl rfl

theorem turnBefore_effect (turn : Nat) (s : State) : MemoryEffect s (turnBefore turn s) := by
  unfold turnBefore
  split
  · exact .of_eq rfl rfl rfl rfl rfl rfl
  · exact agentTurn_effect turn s

theorem noteReads_effect (l : List Nat) (s : State) : MemoryEffect s (noteReads l s) :=
  .of_eq (by simp) (by simp) (by simp) (by simp) (by simp) (by simp)

theorem writeCells_stale (l : List Host.Cell) (s : State) : (writeCells l s).stale = (storeBytes l s).stale := by
  simp [writeCells]

theorem writeCells_effect (l : List Host.Cell) (s : State) : MemoryEffect s (writeCells l s) :=
  ⟨by simp, .inl (by simp), .inl (by simp),
    ((storeBytes_staleAfter l s).of_eq (writeCells_mem l s) (by simp) (by simp) (writeCells_stale l s)).grows⟩

theorem readParts_effect (a : Word) (parts : List (List Nat)) (turn : Nat) (s : State) :
    MemoryEffect s (readParts a parts turn s).2 := by
  induction parts generalizing turn s with
  | nil => exact .of_eq rfl rfl rfl rfl rfl rfl
  | cons part rest ih => exact (turnBefore_effect turn s).trans ((noteReads_effect _ _).trans (ih _ _))

theorem writeParts_effect (cells : List Host.Cell) (parts : List (List Nat)) (turn : Nat) (s : State) :
    MemoryEffect s (writeParts cells parts turn s) := by
  induction parts generalizing turn s with
  | nil => exact .of_eq rfl rfl rfl rfl rfl rfl
  | cons part rest ih => exact (turnBefore_effect turn s).trans ((writeCells_effect _ _).trans (ih _ _))

theorem readAccess_effect (a : Word) (n : Nat) (s : State) : MemoryEffect s (readAccess a n s).2 := by
  unfold readAccess
  split
  · exact noteReads_effect _ s
  · exact readParts_effect a _ 0 s

theorem writeAccess_effect (first : Nat) (a : Word) (n v : Nat) (s : State) :
    MemoryEffect s (writeAccess first a n v s) := by
  unfold writeAccess
  split
  · exact writeCells_effect _ s
  · exact writeParts_effect _ _ first s

/-! ### The reservation -/

/-- The accesses of loads, stores and AMOs are of at most 16 bytes. -/
theorem multiAccess_size {i : Instr} {base : RegNum} {off : Word} {n : Nat}
    (h : multiAccess i = some (base, off, n)) : n ∈ [1, 2, 4, 8, 16] := by
  unfold multiAccess at h
  split at h <;> cases h <;> decide

theorem multiAccess_le {i : Instr} {base : RegNum} {off : Word} {n : Nat} (h : multiAccess i = some (base, off, n))
    (c : Xlen) : n ≤ 2 ^ c.bits := by
  have h16 : n ≤ 16 := by
    have := multiAccess_size h
    simp only [List.mem_cons, List.not_mem_nil, or_false] at this
    omega
  exact h16.trans (by cases c <;> decide)

/-- One memory operation leaves the reservation. -/
theorem readAccess_reservation_of_single {a : Word} {n : Nat} {s : State} (h : Single s.cfg a n) :
    (readAccess a n s).2.reservation = s.reservation :=
  (((readAccess_spec (w := 8 * n) a n s (Nat.le_refl _)).1 h).2.2).1

theorem writeAccess_reservation_of_single {first : Nat} {a : Word} {n v : Nat} {s : State} (h : Single s.cfg a n) :
    (writeAccess first a n v s).reservation = s.reservation := by
  rw [writeAccess, if_pos (singleAccess_iff.2 h), memWrite_reservation]

/-- An effect changes the reservation only as an LR or an SC, or in the agent's turns within an access. -/
theorem Effect.reservation_change {i : Instr} {s u : State} (h : Effect i s u) (hne : u.reservation ≠ s.reservation) :
    IsLr i ∨ IsSc i ∨ (s.cfg.agentWrites = true ∧ u.reservation = none ∧
      ∃ base off n, multiAccess i = some (base, off, n) ∧ ¬ Single s.cfg (effAddr base off s) n) := by
  have hturns : ∀ {base off n} {t : State}, multiAccess i = some (base, off, n) → MemoryEffect s t →
      (Single s.cfg (effAddr base off s) n → t.reservation = s.reservation) → t.reservation ≠ s.reservation →
      (s.cfg.agentWrites = true ∧ t.reservation = none ∧
        ∃ base off n, multiAccess i = some (base, off, n) ∧ ¬ Single s.cfg (effAddr base off s) n) := by
    intro base off n t hi ht hsingle hne
    obtain ⟨ha, hnone⟩ := ht.reservation.resolve_left hne
    exact ⟨ha, hnone, base, off, n, hi, fun hs => hne (hsingle hs)⟩
  cases h with
  | reserve hi => exact .inl hi
  | stored hi | failed hi => exact .inr (.inl hi)
  | load hi rd v =>
    simp only [writeX_reservation] at hne ⊢
    exact .inr (.inr (hturns hi (readAccess_effect ..) readAccess_reservation_of_single hne))
  | loadFloat hi fmt rd v =>
    simp only [writeFBoxed_reservation] at hne ⊢
    exact .inr (.inr (hturns hi (readAccess_effect ..) readAccess_reservation_of_single hne))
  | store hi v => exact .inr (.inr (hturns hi (writeAccess_effect ..) writeAccess_reservation_of_single hne))
  | amo hi rd v new =>
    simp only [writeX_reservation] at hne ⊢
    refine .inr (.inr (hturns hi ((readAccess_effect ..).trans (writeAccess_effect ..)) (fun hs => ?_) hne))
    rw [writeAccess_reservation_of_single (by rwa [readAccess_cfg]), readAccess_reservation_of_single hs]
  | _ => exact absurd (by simp) hne

theorem single_byte (c : Cfg) (a : Word) : Single c a 1 := ⟨Nat.mod_one _, by cases h : c.xlen <;> decide⟩

theorem cOffW_eq (u : BitVec 5) : cOffW u = BitVec.ofNat 64 (4 * u.toNat) := by
  apply BitVec.eq_of_toNat_eq
  simp only [cOffW, BitVec.toNat_setWidth, BitVec.toNat_append, BitVec.toNat_ofNat, Nat.shiftLeft_eq]
  simp [Nat.mul_comm]

theorem cOffD_eq (u : BitVec 5) : cOffD u = BitVec.ofNat 64 (8 * u.toNat) := by
  apply BitVec.eq_of_toNat_eq
  simp only [cOffD, BitVec.toNat_setWidth, BitVec.toNat_append, BitVec.toNat_ofNat, Nat.shiftLeft_eq]
  simp [Nat.mul_comm]

theorem cOffWsp_eq (u : BitVec 6) : cOffWsp u = BitVec.ofNat 64 (4 * u.toNat) := by
  apply BitVec.eq_of_toNat_eq
  simp only [cOffWsp, BitVec.toNat_setWidth, BitVec.toNat_append, BitVec.toNat_ofNat, Nat.shiftLeft_eq]
  simp [Nat.mul_comm]

theorem cOffDsp_eq (u : BitVec 6) : cOffDsp u = BitVec.ofNat 64 (8 * u.toNat) := by
  apply BitVec.eq_of_toNat_eq
  simp only [cOffDsp, BitVec.toNat_setWidth, BitVec.toNat_append, BitVec.toNat_ofNat, Nat.shiftLeft_eq]
  simp [Nat.mul_comm]

/-- The loads and stores of 32 bits whose access may be several operations, with its base, offset and size. -/
noncomputable def fullForms (r1 r2 base : RegNum) (imm : BitVec 12) : List (Instr × RegNum × Word × Nat) := [
  (.lh r1 base imm, base, imm.signExtend 64, 2), (.lhu r1 base imm, base, imm.signExtend 64, 2),
  (.lw r1 base imm, base, imm.signExtend 64, 4), (.lwu r1 base imm, base, imm.signExtend 64, 4),
  (.ld r1 base imm, base, imm.signExtend 64, 8), (.sh r2 base imm, base, imm.signExtend 64, 2),
  (.sw r2 base imm, base, imm.signExtend 64, 4), (.sd r2 base imm, base, imm.signExtend 64, 8),
  (.flh r1 base imm, base, imm.signExtend 64, 2), (.flw r1 base imm, base, imm.signExtend 64, 4),
  (.fld r1 base imm, base, imm.signExtend 64, 8), (.flq r1 base imm, base, imm.signExtend 64, 16),
  (.fsh r2 base imm, base, imm.signExtend 64, 2), (.fsw r2 base imm, base, imm.signExtend 64, 4),
  (.fsd r2 base imm, base, imm.signExtend 64, 8), (.fsq r2 base imm, base, imm.signExtend 64, 16)]

/-- The compressed ones. -/
noncomputable def compressedForms (r1 r2 : RegNum) (c1 c2 : CRegNum) (u5 : BitVec 5) (u6 : BitVec 6) :
    List (Instr × RegNum × Word × Nat) := [
  (.cLw c1 c2 u5, cReg c2, BitVec.ofNat 64 (4 * u5.toNat), 4),
  (.cLd c1 c2 u5, cReg c2, BitVec.ofNat 64 (8 * u5.toNat), 8),
  (.cLwsp r1 u6, 2, BitVec.ofNat 64 (4 * u6.toNat), 4), (.cLdsp r1 u6, 2, BitVec.ofNat 64 (8 * u6.toNat), 8),
  (.cSw c1 c2 u5, cReg c2, BitVec.ofNat 64 (4 * u5.toNat), 4),
  (.cSd c1 c2 u5, cReg c2, BitVec.ofNat 64 (8 * u5.toNat), 8),
  (.cSwsp r2 u6, 2, BitVec.ofNat 64 (4 * u6.toNat), 4), (.cSdsp r2 u6, 2, BitVec.ofNat 64 (8 * u6.toNat), 8),
  (.cFlw c1 c2 u5, cReg c2, BitVec.ofNat 64 (4 * u5.toNat), 4),
  (.cFld c1 c2 u5, cReg c2, BitVec.ofNat 64 (8 * u5.toNat), 8),
  (.cFlwsp r1 u6, 2, BitVec.ofNat 64 (4 * u6.toNat), 4), (.cFldsp r1 u6, 2, BitVec.ofNat 64 (8 * u6.toNat), 8),
  (.cFsw c1 c2 u5, cReg c2, BitVec.ofNat 64 (4 * u5.toNat), 4),
  (.cFsd c1 c2 u5, cReg c2, BitVec.ofNat 64 (8 * u5.toNat), 8),
  (.cFswsp r2 u6, 2, BitVec.ofNat 64 (4 * u6.toNat), 4), (.cFsdsp r2 u6, 2, BitVec.ofNat 64 (8 * u6.toNat), 8)]

/-- The AMOs. -/
noncomputable def amoForms (r1 r2 base : RegNum) (aq rl : BitVec 1) : List (Instr × RegNum × Word × Nat) := [
  (.amoswapW r1 base r2 aq rl, base, 0, 4), (.amoaddW r1 base r2 aq rl, base, 0, 4),
  (.amoxorW r1 base r2 aq rl, base, 0, 4), (.amoandW r1 base r2 aq rl, base, 0, 4),
  (.amoorW r1 base r2 aq rl, base, 0, 4), (.amominW r1 base r2 aq rl, base, 0, 4),
  (.amomaxW r1 base r2 aq rl, base, 0, 4), (.amominuW r1 base r2 aq rl, base, 0, 4),
  (.amomaxuW r1 base r2 aq rl, base, 0, 4), (.amoswapD r1 base r2 aq rl, base, 0, 8),
  (.amoaddD r1 base r2 aq rl, base, 0, 8), (.amoxorD r1 base r2 aq rl, base, 0, 8),
  (.amoandD r1 base r2 aq rl, base, 0, 8), (.amoorD r1 base r2 aq rl, base, 0, 8),
  (.amominD r1 base r2 aq rl, base, 0, 8), (.amomaxD r1 base r2 aq rl, base, 0, 8),
  (.amominuD r1 base r2 aq rl, base, 0, 8), (.amomaxuD r1 base r2 aq rl, base, 0, 8)]

/-- An access that may be several operations is that of a listed instruction, or of one byte. -/
theorem multiAccess_listed {i : Instr} {base : RegNum} {off : Word} {n : Nat}
    (hi : multiAccess i = some (base, off, n)) :
    n = 1 ∨ (∃ r1 r2 imm, (i, base, off, n) ∈ fullForms r1 r2 base imm) ∨
      (∃ r1 r2 c1 c2 u5 u6, (i, base, off, n) ∈ compressedForms r1 r2 c1 c2 u5 u6) ∨
      ∃ r1 r2 aq rl, (i, base, off, n) ∈ amoForms r1 r2 base aq rl := by
  cases i
  case lb | lbu | sb => cases hi; exact .inl rfl
  case lh | lhu | lw | lwu | ld | flh | flw | fld | flq =>
    rename_i rd b imm
    cases hi
    exact .inr (.inl ⟨rd, 0, imm, by simp [fullForms, imm12]⟩)
  case sh | sw | sd | fsh | fsw | fsd | fsq =>
    rename_i rs2 b imm
    cases hi
    exact .inr (.inl ⟨0, rs2, imm, by simp [fullForms, imm12]⟩)
  case cLw | cLd | cFlw | cFld | cSw | cSd | cFsw | cFsd =>
    rename_i c1 c2 u5
    cases hi
    exact .inr (.inr (.inl ⟨0, 0, c1, c2, u5, 0, by simp [compressedForms, cOffW_eq, cOffD_eq]⟩))
  case cLwsp | cLdsp | cFlwsp | cFldsp =>
    rename_i rd u6
    cases hi
    exact .inr (.inr (.inl ⟨rd, 0, 0, 0, 0, u6, by simp [compressedForms, cOffWsp_eq, cOffDsp_eq]⟩))
  case cSwsp | cSdsp | cFswsp | cFsdsp =>
    rename_i rs2 u6
    cases hi
    exact .inr (.inr (.inl ⟨0, rs2, 0, 0, 0, u6, by simp [compressedForms, cOffWsp_eq, cOffDsp_eq]⟩))
  case amoswapW | amoaddW | amoxorW | amoandW | amoorW | amominW | amomaxW | amominuW | amomaxuW | amoswapD | amoaddD |
      amoxorD | amoandD | amoorD | amominD | amomaxD | amominuD | amomaxuD =>
    rename_i rd b rs2 aq rl
    cases hi
    exact .inr (.inr (.inr ⟨rd, rs2, aq, rl, by simp [amoForms]⟩))
  all_goals cases hi

/-- Settles O21: a changed reservation is an LR's, an SC's, or the agent's doing; then the instruction is one of those
with an access that may be several operations, an access of one byte excluded. -/
theorem reservationOnlyByLrSc : Obligations.ReservationOnlyByLrSc := by
  intro i s t hnext hne
  have h := exec_ends i s
  rw [hnext] at h
  generalize hres : Host.Outcome.next t = res at h
  cases h with
  | trap e info => cases hres; exact absurd rfl hne
  | jumped target rd v => cases hres; exact absurd (by simp) hne
  | @retired len u hlen hu =>
    cases hres
    obtain hlr | hsc | ⟨ha, hnone, base, off, n, hi, hns⟩ := hu.reservation_change hne
    · exact .inl hlr
    · exact .inr (.inl hsc)
    · obtain rfl | ⟨r1, r2, imm, hmem⟩ | ⟨r1, r2, c1, c2, u5, u6, hmem⟩ | ⟨r1, r2, aq, rl, hmem⟩ :=
        multiAccess_listed hi
      · exact absurd (single_byte _ _) hns
      · exact .inr (.inr ⟨ha, hnone, r1, r2, base, imm, 0, 0, 0, 0, 0, 0, off, n, hns, .inl hmem⟩)
      · exact .inr (.inr ⟨ha, hnone, r1, r2, base, 0, c1, c2, u5, u6, 0, 0, off, n, hns, .inr (.inl hmem)⟩)
      · exact .inr (.inr ⟨ha, hnone, r1, r2, base, 0, 0, 0, 0, 0, aq, rl, off, n, hns, .inr (.inr hmem)⟩)

end Sys2Proof.Machine
end
section
/-! PROOFS. FENCE.I and what a fetch may return of bytes written since (42_zifencei_hints.md R400; 20_memory.md R120). -/

namespace Sys2Proof.Machine

/-! ### Stores without a turn of the environment agent -/

theorem storeBytes_append (l m : List Host.Cell) (s : State) :
    storeBytes (l ++ m) s = storeBytes m (storeBytes l s) := by
  induction l generalizing s with
  | nil => rfl
  | cons c l ih => rw [List.cons_append, storeBytes, storeBytes, ih]

theorem storeBytes_congr (l : List Host.Cell) {s t : State} (hm : t.mem = s.mem) (hs : t.stale = s.stale)
    (hc : t.cfg = s.cfg) : (storeBytes l t).mem = (storeBytes l s).mem ∧ (storeBytes l t).stale = (storeBytes l s).stale := by
  induction l generalizing s t with
  | nil => exact ⟨hm, hs⟩
  | cons c l ih =>
    rw [storeBytes, storeBytes, hc]
    split
    · exact ih hm hs hc
    · exact ih (by simp only [setMainByte, hm]) (by simp only [setMainByte, hm, hs]) hc

/-- Stores to distinct bytes list no value but those the bytes had before all of them. -/
theorem storeBytes_stale_of_nodup (l : List Host.Cell) (s : State) (hl : (l.map Prod.fst).Nodup) {c : Host.Cell}
    (h : c ∈ (storeBytes l s).stale) : c ∈ s.stale ∨ (c.1 ∈ l.map Prod.fst ∧ c.2 = readByte s c.1) := by
  induction l generalizing s with
  | nil => exact .inl h
  | cons d l ih =>
    obtain ⟨a, v⟩ := d
    rw [List.map_cons, List.nodup_cons] at hl
    rw [storeBytes] at h
    by_cases hio : isIo s.cfg a = true
    · rw [if_pos hio] at h
      exact (ih s hl.2 h).imp id fun ⟨hmem, hval⟩ => ⟨List.mem_cons_of_mem _ hmem, hval⟩
    · rw [if_neg hio] at h
      have hold : readByte s a = Memory.get s.mem a := if_neg hio
      rcases ih _ hl.2 h with h | ⟨hmem, hval⟩
      · simp only [setMainByte] at h
        split at h
        · exact .inl h
        · rcases List.mem_cons.1 h with rfl | h
          · exact .inr ⟨List.mem_cons_self, hold.symm⟩
          · exact .inl h
      · have hne : c.1 ≠ a := fun he => hl.1 (he ▸ hmem)
        refine .inr ⟨List.mem_cons_of_mem _ hmem, hval.trans ?_⟩
        unfold readByte
        rw [setMainByte_cfg, setMainByte_draw]
        congr 1
        exact Memory.get_set_ne s.mem hne v

/-- Where the agent does not write, the parts of a store are one store of their bytes in order. -/
theorem writeParts_silent (cells : List Host.Cell) (parts : List (List Nat)) (turn : Nat) (s : State)
    (hs : s.cfg.agentWrites = false) :
    (writeParts cells parts turn s).mem = (storeBytes (parts.flatten.filterMap (fun k => cells[k]?)) s).mem ∧
    (writeParts cells parts turn s).stale = (storeBytes (parts.flatten.filterMap (fun k => cells[k]?)) s).stale := by
  induction parts generalizing turn s with
  | nil => exact ⟨rfl, rfl⟩
  | cons part rest ih =>
    rw [List.flatten_cons, List.filterMap_append, storeBytes_append, writeParts, turnBefore_silent hs]
    obtain ⟨hmem, hstale⟩ := ih (turn + 1) (writeCells (part.filterMap (fun k => cells[k]?)) s) (by simpa using hs)
    obtain ⟨hmem', hstale'⟩ := storeBytes_congr (rest.flatten.filterMap (fun k => cells[k]?))
      (writeCells_mem (part.filterMap (fun k => cells[k]?)) s) (writeCells_stale _ s) (by simp)
    exact ⟨hmem.trans hmem', hstale.trans hstale'⟩

theorem filterMap_storeCells {w : Nat} (c : Cfg) (a : Word) (n : Nat) (v : BitVec w) (l : List Nat)
    (hl : ∀ k ∈ l, k < n) :
    l.filterMap (fun k => (storeCells c a n v.toNat)[k]?) = storedCells c a n v l := by
  rw [storeCells_eq, storedCells, ← List.filterMap_eq_map]
  exact List.filterMap_congr fun k hk => by simp [hl k hk]

/-- One store lists no value but those its bytes had before it. -/
theorem memWrite_stale {a : Word} {n v : Nat} {s : State} (hn : n ≤ 2 ^ s.cfg.xlen.bits) {c : Host.Cell}
    (h : c ∈ (memWrite a n v s).stale) : c ∈ s.stale ∨ c.2 = readByte s c.1 := by
  rw [memWrite, writeCells_stale] at h
  exact (storeBytes_stale_of_nodup _ s (storeCells_fst s.cfg a n v ▸ byteAddrs_nodup s.cfg a n hn) h).imp id And.right

/-- Where the agent does not write, a store lists no value but those its bytes had before it. -/
theorem writeAccess_stale_silent {w : Nat} (first : Nat) (a : Word) (n : Nat) (v : BitVec w) (s : State)
    (hn : n ≤ 2 ^ s.cfg.xlen.bits) (hs : s.cfg.agentWrites = false) {c : Host.Cell}
    (h : c ∈ (writeAccess first a n v.toNat s).stale) : c ∈ s.stale ∨ c.2 = readByte s c.1 := by
  unfold writeAccess at h
  split at h
  · exact memWrite_stale hn h
  · have hp := components_mayBe s.cfg a n 1 s.draw
    rw [(writeParts_silent _ _ _ s hs).2, filterMap_storeCells _ _ _ _ _ fun k => hp.lt k] at h
    refine (storeBytes_stale_of_nodup _ s ?_ h).imp id And.right
    rw [storedCells, List.map_map]
    exact hp.nodup.map_on fun j hj k hk => byteAddr_inj hn (hp.lt j hj) (hp.lt k hk)

/-- Where the agent does not write, a read leaves every byte and what is listed. -/
theorem readAccess_silent (a : Word) (n : Nat) (s : State) (hs : s.cfg.agentWrites = false) :
    (∀ b, readByte (readAccess a n s).2 b = readByte s b) ∧ (readAccess a n s).2.stale = s.stale := by
  obtain ⟨-, -, hsilent⟩ := readAccess_spec (w := 8 * n) a n s (Nat.le_refl _)
  obtain ⟨-, hbytes, hstale, -⟩ := hsilent hs
  exact ⟨hbytes, hstale⟩

/-! ### Every other instruction -/

/-- What the memory operations of an access list: what a turn of the agent may add is not said. -/
theorem StaleGrows.after {s t : State} (h : StaleGrows s t)
    (hs : s.cfg.agentWrites = false → ∀ c ∈ t.stale, c ∈ s.stale ∨ c.2 = readByte s c.1) :
    StaleAfter s t (fun _ => s.cfg.agentWrites = true) := by
  refine ⟨h.1, h.2, fun c hc => ?_⟩
  cases ha : s.cfg.agentWrites with
  | true => exact .inr (.inr rfl)
  | false => exact (hs ha c hc).imp id .inl

theorem StaleAfter.refl_of_eq {s t : State} {p : Host.Cell → Prop} (hm : t.mem = s.mem) (hs : t.stale = s.stale)
    (hc : t.cfg = s.cfg) (hd : t.draw = s.draw) : StaleAfter s t p :=
  ⟨(StaleGrows.of_eq hm hs hc hd).1, (StaleGrows.of_eq hm hs hc hd).2, fun _ h => .inl (hs ▸ h)⟩

theorem StaleAfter.writeX {s t : State} {p : Host.Cell → Prop} (rd : RegNum) (v : Word) (h : StaleAfter s t p) :
    StaleAfter s (writeX rd v t) p := h.of_eq (by simp) (by simp) (by simp) (by simp)

theorem StaleAfter.writeFBoxed {s t : State} {p : Host.Cell → Prop} (fmt : Fmt) (rd : RegNum) (v : FpBits fmt)
    (h : StaleAfter s t p) : StaleAfter s (writeFBoxed fmt rd v t) p := h.of_eq rfl rfl rfl rfl

theorem readAccess_staleAfter (a : Word) (n : Nat) (s : State) :
    StaleAfter s (readAccess a n s).2 (fun _ => s.cfg.agentWrites = true) :=
  (readAccess_effect a n s).stale.after fun ha _ hc => .inl ((readAccess_silent a n s ha).2 ▸ hc)

/-- A read and then a store, as an AMO makes them. -/
theorem amoAccess_staleAfter {w : Nat} (a : Word) (n : Nat) (new : BitVec w) (s : State)
    (hn : n ≤ 2 ^ s.cfg.xlen.bits) :
    StaleAfter s (writeAccess n a n new.toNat (readAccess a n s).2) (fun _ => s.cfg.agentWrites = true) := by
  refine ((readAccess_effect ..).trans (writeAccess_effect ..)).stale.after fun ha c hc => ?_
  obtain ⟨hbytes, hstale⟩ := readAccess_silent a n s ha
  rw [← hstale, ← hbytes]
  exact writeAccess_stale_silent n a n new _ (by simpa using hn) (by simpa using ha) hc

theorem Effect.staleAfter {i : Instr} {s u : State} (h : Effect i s u) (hi : ¬ IsFenceI i) :
    StaleAfter s u (fun _ => s.cfg.agentWrites = true) := by
  cases h with
  | fence hf => exact absurd hf hi
  | load hm rd v => exact (readAccess_staleAfter ..).writeX rd v
  | loadFloat hm fmt rd v => exact (readAccess_staleAfter ..).writeFBoxed fmt rd v
  | store hm v =>
    exact (writeAccess_effect ..).stale.after fun ha c hc =>
      writeAccess_stale_silent _ _ _ v s (multiAccess_le hm _) ha hc
  | amo hm rd v new => exact (amoAccess_staleAfter _ _ new s (multiAccess_le hm _)).writeX rd v
  | stored hsc rd a hn v =>
    have hsize := hn.trans (show 8 ≤ 2 ^ s.cfg.xlen.bits by cases s.cfg.xlen <;> decide)
    have h := StaleGrows.after (s := s) (writeCells_effect (storeCells s.cfg a _ v.toNat) s).stale
      fun _ c hc => memWrite_stale hsize hc
    exact (h.writeX rd 0).of_eq rfl rfl rfl rfl
  | _ => exact .refl_of_eq (by simp) (by simp) (by simp) (by simp)

/-! ### What a fetch returns -/

/-- A fetch of a byte of main memory returns what a load returns, or a listed value. -/
theorem fetchByte_eq_or_mem (s : State) {a : Nat} (hio : isIo s.cfg a = false) :
    fetchByte s a = readByte s a ∨ (a, fetchByte s a) ∈ s.stale := by
  have hread : readByte s a = Memory.get s.mem a := by simp [readByte, hio]
  have hlisted : ∀ v ∈ staleValues s a, (a, v) ∈ s.stale := by
    intro v hv
    obtain ⟨⟨b, u⟩, hb, rfl⟩ := List.mem_map.1 hv
    obtain ⟨hb, he⟩ := List.mem_filter.1 hb
    simp only [beq_iff_eq] at he
    exact he ▸ hb
  unfold fetchByte
  rw [hio, hread]
  split
  · contradiction
  · split
    · exact .inl rfl
    · rename_i old older hvalues
      rw [hvalues] at hlisted
      have hlt : Config.fetchChoice a s.draw % (older.length + 2) < (Memory.get s.mem a :: old :: older).length :=
        Nat.mod_lt _ (by omega)
      rw [List.getD_eq_getElem _ _ hlt]
      rcases List.mem_cons.1 (List.getElem_mem hlt) with h | h
      · exact .inl h
      · exact .inr (hlisted _ h)

theorem fetchByte_of_no_stale {s : State} {a : Nat} (hio : isIo s.cfg a = false) (hs : s.stale = []) :
    fetchByte s a = readByte s a :=
  (fetchByte_eq_or_mem s hio).resolve_right (by simp [hs])

/-- Settles O46: FENCE.I empties the list of older values; every other instruction's effect is one of the above. -/
theorem fenceInstructionResult : Obligations.FenceInstructionResult := by
  refine ⟨fun s imm rs1 rd => ?_, fun s a hio => fetchByte_eq_or_mem s hio, fun i s t hnext hi => ?_⟩
  · obtain ⟨t, hnext, hret, hstale, hx, hf, hfcsr, hcount, hbytes, hio, hcontrol, hres⟩ := fenceInstr_spec s
    exact ⟨t, hnext, hret, fun a ha => fetchByte_of_no_stale (hcontrol.1.symm ▸ ha) hstale, hx, hf,
      ⟨hfcsr, hcount, hcontrol⟩, hbytes, hio, hres⟩
  · have hfence : ¬ IsFenceI i := fun ⟨imm, rs1, rd, h⟩ => hi imm rs1 rd h
    have h := exec_ends i s
    rw [hnext] at h
    generalize hres : Host.Outcome.next t = res at h
    cases h with
    | trap e info => cases hres; exact .refl_of_eq rfl rfl rfl rfl
    | retired hlen hu => cases hres; exact (hu.staleAfter hfence).of_eq rfl rfl rfl rfl
    | jumped target rd v => cases hres; exact .refl_of_eq (by simp) (by simp) (by simp) (by simp)

end Sys2Proof.Machine
end
section
/-! PROOFS. The invariant of the machine: the start of a step, the note of a loop, a trap, the environment's resumption
and every effect of an instruction keep it; and the constrained loop within its bound. -/

namespace Sys2Proof.Machine

/-! ### Registers within their widths -/

def XInside (s : State) : Prop := ∀ r : Fin 32, (s.x[r]).toNat < 2 ^ s.cfg.xlen.bits

def FInside (s : State) : Prop := ∀ r : Fin 32, (s.f[r]).toNat < 2 ^ flen s.cfg

theorem xInside_set {c : Xlen} {x : Vector Word 32} {r : RegNum} {v : Word}
    (h : ∀ q : Fin 32, (x[q]).toNat < 2 ^ c.bits) (q : Fin 32) :
    ((x.set r.toNat (truncX c v) r.isLt)[q]).toNat < 2 ^ c.bits := by
  rw [Fin.getElem_fin, Vector.getElem_set]
  split
  · exact truncX_lt c v
  · exact h q

theorem XInside.writeX {s : State} (h : XInside s) (rd : RegNum) (v : Word) : XInside (writeX rd v s) := by
  unfold XInside
  rw [writeX_cfg]
  unfold Machine.writeX
  split
  · exact h
  · exact xInside_set h

theorem XInside.of_eq {s t : State} (h : XInside s) (hx : t.x = s.x) (hc : t.cfg = s.cfg) : XInside t := by
  unfold XInside
  rw [hc]
  exact fun r => by simpa only [hx] using h r

theorem FInside.of_eq {s t : State} (h : FInside s) (hf : t.f = s.f) (hc : t.cfg = s.cfg) : FInside t := by
  unfold FInside
  rw [hc]
  exact fun r => by simpa only [hf] using h r

theorem truncF_lt (l : Nat) (v : FWord) : ((v.setWidth l).setWidth 128).toNat < 2 ^ l := by
  rw [BitVec.toNat_setWidth]
  exact Nat.lt_of_le_of_lt (Nat.mod_le _ _) (v.setWidth l).isLt

theorem FInside.writeF {s : State} (h : FInside s) (rd : RegNum) (v : FWord) : FInside (writeF rd v s) := by
  intro q
  show (((s.f.set rd.toNat _ rd.isLt)[q]).toNat < 2 ^ flen s.cfg)
  rw [Fin.getElem_fin, Vector.getElem_set]
  split
  · exact truncF_lt _ v
  · exact h q

theorem XInside.writeFp {s : State} (h : XInside s) (fmt : Fmt) (rd : RegNum) (v : FpBits fmt) :
    XInside (writeFp fmt rd v s) := by
  unfold Machine.writeFp
  split
  · split
    · split
      · exact h
      · exact (h.writeX _ _).writeX _ _
    · exact h.writeX _ _
  · exact h.of_eq rfl rfl

theorem FInside.writeFp {s : State} (h : FInside s) (fmt : Fmt) (rd : RegNum) (v : FpBits fmt) :
    FInside (writeFp fmt rd v s) := by
  unfold Machine.writeFp
  split
  · split
    · split
      · exact h
      · exact h.of_eq (by simp) (by simp)
    · exact h.of_eq (by simp) (by simp)
  · exact h.writeF _ _

/-! ### Memory, the reservation and the loop -/

def MemInside (s : State) : Prop := Memory.wf s.mem = true ∧ ∀ c ∈ s.mem, c.1 < 2 ^ s.cfg.xlen.bits

theorem MemInside.of_eq {s t : State} (h : MemInside s) (hm : t.mem = s.mem) (hc : t.cfg = s.cfg) : MemInside t := by
  unfold MemInside
  rw [hm, hc]
  exact h

theorem MemInside.writeX {s : State} (h : MemInside s) (rd : RegNum) (v : Word) : MemInside (writeX rd v s) :=
  h.of_eq (by simp) (by simp)

theorem MemInside.startStep {s : State} (h : MemInside s) : MemInside (startStep s) :=
  ⟨startStep_wf s h.1, by simpa using startStep_inside s h.2⟩

theorem MemInside.readAccess {s : State} (h : MemInside s) (a : Word) (n : Nat) : MemInside (readAccess a n s).2 :=
  ⟨readAccess_wf a n s h.1, by simpa using readAccess_inside a n s h.2⟩

theorem MemInside.writeAccess {s : State} (h : MemInside s) (first : Nat) (a : Word) (n v : Nat) :
    MemInside (writeAccess first a n v s) :=
  ⟨writeAccess_wf first a n v s h.1, by simpa using writeAccess_inside first a n v s h.2⟩

theorem MemInside.memWrite {s : State} (h : MemInside s) (a : Word) (n v : Nat) : MemInside (memWrite a n v s) := by
  refine ⟨memWrite_wf a n v s h.1, ?_⟩
  rw [memWrite_mem, memWrite_cfg]
  exact storeBytes_inside _ s _ (fun c hc => byteAddrs_lt (mem_storeCells hc)) h.2

theorem MemInside.envWrite {s : State} (h : MemInside s) (turn : Nat) (l : List Host.Cell) :
    MemInside (envWrite turn (wrapCells s.cfg l) s) := by
  refine ⟨envWrite_wf turn _ s h.1, ?_⟩
  rw [envWrite_cfg]
  exact storeBytes_inside _ s _ (fun c hc => wrapCells_lt hc) h.2

def Covers (r : Reservation) : Prop := ∀ a, r.lrAddr ≤ a → a < r.lrAddr + r.lrLen → inReservation r a = true

theorem covers_reservationFor (c : Cfg) (a : Word) (n : Nat) : Covers (reservationFor c a n) := by
  intro b hle hlt
  simp only [inReservation, reservationFor, List.any_cons, Bool.or_eq_true, Bool.and_eq_true, decide_eq_true_eq]
  exact .inl ⟨hle, hlt⟩

/-- The loop is as before, or gone, or has one more failure, which its patience allows. -/
def LoopKept (s t : State) : Prop :=
  ∀ w, t.watch = some w → ∃ v, s.watch = some v ∧ w.since = v.since ∧
    (w.failures = v.failures ∨ (v.failures ≤ Config.scPatience v.since ∧ w.failures = v.failures + 1))

theorem LoopKept.of_eq {s t : State} (h : t.watch = s.watch) : LoopKept s t := fun w hw =>
  ⟨w, h ▸ hw, rfl, .inl rfl⟩

theorem MemoryEffect.loopKept {s t : State} (h : MemoryEffect s t) : LoopKept s t := by
  intro w hw
  rcases h.watch with h | h
  · exact ⟨w, h ▸ hw, rfl, .inl rfl⟩
  · exact absurd (h.symm.trans hw) nofun

theorem loopKept_watchAfterFailure {s t : State} {a : Word} {n : Nat} (h : t.watch = watchAfterFailure a n s) :
    LoopKept s t := by
  intro w hw
  obtain ⟨v, hv, -, hpatience, rfl⟩ := watchAfterFailure_cases (h.symm.trans hw)
  exact ⟨v, hv, rfl, .inr ⟨hpatience, rfl⟩⟩

theorem startStep_effect (s : State) : MemoryEffect (tick s) (startStep s) := agentTurn_effect 0 (tick s)

theorem startStep_watch (s : State) : (startStep s).watch = s.watch ∨ (startStep s).watch = none :=
  (startStep_effect s).watch

/-! ### What an effect keeps -/

section Effects

variable {i : Instr} {s u : State}

theorem Effect.xInside (h : Effect i s u) (hx : XInside s) : XInside u := by
  cases h with
  | integer rd v => exact hx.writeX rd v
  | float fmt rd v fl => exact (hx.writeFp fmt rd v).of_eq rfl rfl
  | integerFlags rd v fl => exact (hx.writeX rd v).of_eq rfl rfl
  | csr hi rd r old v => exact (hx.of_eq (t := csrWrite r v s) (by simp) (by simp)).writeX rd old
  | load hi rd v => exact XInside.writeX (hx.of_eq (by simp) (by simp)) rd v
  | amo hi rd v new => exact XInside.writeX (hx.of_eq (by simp) (by simp)) rd v
  | reserve hi rd v a n => exact ((hx.of_eq (t := noteRead a n s) (by simp) (by simp)).writeX rd v).of_eq rfl rfl
  | stored hi rd a hn v => exact ((hx.of_eq (t := memWrite a _ _ s) (by simp) (by simp)).writeX rd 0).of_eq rfl rfl
  | failed hi rd a n => exact (hx.writeX rd _).of_eq rfl rfl
  | _ => exact hx.of_eq (by simp) (by simp)

theorem Effect.fInside (h : Effect i s u) (hf : FInside s) : FInside u := by
  cases h with
  | float fmt rd v fl => exact (hf.writeFp fmt rd v).of_eq rfl rfl
  | boxed fmt rd v => exact hf.writeF rd _
  | loadFloat hi fmt rd v => exact (hf.of_eq (t := (readAccess _ _ s).2) (by simp) (by simp)).writeF rd _
  | _ => exact hf.of_eq (by simp) (by simp)

theorem Effect.memInside (h : Effect i s u) (hm : MemInside s) : MemInside u := by
  cases h with
  | load hi rd v => exact (hm.readAccess ..).writeX rd v
  | loadFloat hi fmt rd v => exact (hm.readAccess _ _).of_eq (t := writeFBoxed fmt rd v _) rfl rfl
  | store hi v => exact hm.writeAccess ..
  | amo hi rd v new => exact ((hm.readAccess ..).writeAccess ..).writeX rd v
  | stored hi rd a hn v => exact ((hm.memWrite a _ _).writeX rd 0).of_eq rfl rfl
  | _ => exact hm.of_eq (by simp) (by simp)

theorem MemoryEffect.reservation_of_some (h : MemoryEffect s u) {r : Reservation} (hr : u.reservation = some r) :
    s.reservation = some r := by
  rcases h.reservation with he | ⟨-, he⟩
  · exact he.symm.trans hr
  · exact absurd (he.symm.trans hr) nofun

theorem Effect.covers (h : Effect i s u) (hs : ∀ r, s.reservation = some r → Covers r) {r : Reservation}
    (hr : u.reservation = some r) : Covers r := by
  cases h with
  | reserve hi rd v a n =>
    cases hr
    exact covers_reservationFor s.cfg a n
  | stored hi | failed hi => cases hr
  | load hi rd v => exact hs r ((readAccess_effect ..).reservation_of_some (by simpa using hr))
  | loadFloat hi fmt rd v => exact hs r ((readAccess_effect ..).reservation_of_some (by simpa using hr))
  | store hi v => exact hs r ((writeAccess_effect ..).reservation_of_some hr)
  | amo hi rd v new =>
    exact hs r (((readAccess_effect ..).trans (writeAccess_effect ..)).reservation_of_some (by simpa using hr))
  | _ => exact hs r (by simpa using hr)

theorem Effect.loopKept (h : Effect i s u) : LoopKept s u := by
  cases h with
  | load hi rd v => exact fun w hw => (readAccess_effect ..).loopKept w (by simpa using hw)
  | loadFloat hi fmt rd v => exact fun w hw => (readAccess_effect ..).loopKept w (by simpa using hw)
  | store hi v => exact (writeAccess_effect ..).loopKept
  | amo hi rd v new =>
    exact fun w hw => ((readAccess_effect ..).trans (writeAccess_effect ..)).loopKept w (by simpa using hw)
  | stored hi rd a hn v => exact fun w hw => absurd hw nofun
  | failed hi rd a n => exact loopKept_watchAfterFailure rfl
  | _ => exact .of_eq (by simp)

end Effects

/-! ### The invariant -/

theorem ialignBytes_dvd (c : Cfg) : ialignBytes c ∣ 2 ^ c.xlen.bits := by
  unfold ialignBytes
  cases c.xlen <;> split <;> decide

theorem truncX_mod_ialign (c : Cfg) (v : Word) : (truncX c.xlen v).toNat % ialignBytes c = v.toNat % ialignBytes c := by
  rw [truncX_toNat]
  exact Nat.mod_mod_of_dvd _ (ialignBytes_dvd c)

theorem curPc_eq_pc {s : State} (h : s.pc.toNat < 2 ^ s.cfg.xlen.bits) : curPc s = s.pc := truncX_of_lt _ _ h

/-- The pc after an instruction of a length the configuration has is aligned. -/
theorem nextPc_aligned {i : Instr} {len : Nat} {c : Cfg} (hlen : LengthOf i len) (hi : i.available c = true) {pc : Word}
    (hpc : pc.toNat % ialignBytes c = 0) :
    (truncX c.xlen (pc + BitVec.ofNat 64 len)).toNat % ialignBytes c = 0 := by
  rw [truncX_mod_ialign, BitVec.toNat_add, BitVec.toNat_ofNat]
  rcases hlen with rfl | ⟨rfl, hc⟩
  · unfold ialignBytes at *
    split at hpc <;> rename_i hc <;> simp only [hc, if_true, if_false, Bool.false_eq_true] <;> omega
  · simp only [ialignBytes, hc c hi, if_true] at *
    omega

theorem State.Inv.startStep {s : State} (h : s.Inv) : (startStep s).Inv where
  memCanonical := (MemInside.startStep ⟨h.memCanonical, h.memInside⟩).1
  memInside := (MemInside.startStep ⟨h.memCanonical, h.memInside⟩).2
  pcInside := by simpa using h.pcInside
  pcAligned := by simpa using h.pcAligned
  xInside := XInside.of_eq (s := s) h.xInside (by simp) (by simp)
  fInside := FInside.of_eq (s := s) h.fInside (by simp) (by simp)
  reservationCovers r hr := h.reservationCovers r ((startStep_effect s).reservation_of_some hr)
  loopBounded w hw := by
    rcases startStep_watch s with he | he
    · obtain ⟨hsince, hfail⟩ := h.loopBounded w (he.symm.trans hw)
      exact ⟨by rw [startStep_draw]; omega, hfail⟩
    · exact absurd (he.symm.trans hw) nofun
  trapAtPc r hr := by simpa using h.trapAtPc r (by simpa using hr)

theorem State.Inv.observe {s : State} (h : s.Inv) (i : Instr) : (observe i s).Inv where
  memCanonical := by simpa using h.memCanonical
  memInside := by simpa using h.memInside
  pcInside := by simpa using h.pcInside
  pcAligned := by simpa using h.pcAligned
  xInside := XInside.of_eq (s := s) h.xInside (by simp) (by simp)
  fInside := FInside.of_eq (s := s) h.fInside (by simp) (by simp)
  reservationCovers r hr := h.reservationCovers r (by simpa using hr)
  loopBounded w hw := by
    rw [observe_draw]
    rcases observe_watch hw with ⟨hsince, hfail⟩ | ⟨v, hv, hsince, hfail⟩
    · omega
    · rw [hsince, hfail]
      exact h.loopBounded v hv
  trapAtPc r hr := by simpa using h.trapAtPc r (by simpa using hr)

theorem State.Inv.trapped {s : State} (h : s.Inv) (e : Exn) (info : Word) : (trapped e info s).Inv :=
  { h with
    trapAtPc := by
      intro r hr
      cases hr
      exact curPc_eq_pc h.pcInside }

/-- An effect, and then a pc inside the address space and aligned. -/
theorem State.Inv.effect {i : Instr} {s u : State} (h : s.Inv) (hu : Effect i s u) (htrap : s.trap = none) {pc : Word}
    (hinside : pc.toNat < 2 ^ s.cfg.xlen.bits) (haligned : pc.toNat % ialignBytes s.cfg = 0) (n : BitVec 64) :
    State.Inv { u with pc := pc, instret := n } where
  memCanonical := (hu.memInside ⟨h.memCanonical, h.memInside⟩).1
  memInside := (hu.memInside ⟨h.memCanonical, h.memInside⟩).2
  pcInside := hu.cfg_eq.symm ▸ hinside
  pcAligned := hu.cfg_eq.symm ▸ haligned
  xInside := hu.xInside h.xInside
  fInside := hu.fInside h.fInside
  reservationCovers r hr := hu.covers h.reservationCovers hr
  loopBounded w hw := by
    obtain ⟨v, hv, hsince, hfail⟩ := hu.loopKept w hw
    obtain ⟨hold, hbound⟩ := h.loopBounded v hv
    rw [hsince]
    exact ⟨hu.draw_eq.symm ▸ hold, by omega⟩
  trapAtPc r hr := absurd ((hu.trap_eq.trans htrap).symm.trans hr) nofun

theorem exec_keeps_inv {i : Instr} {s t : State} (hi : i.available s.cfg = true) (h : s.Inv) (htrap : s.trap = none)
    (hnext : exec i s = .next t) : t.Inv := by
  have hends := exec_ends i s
  rw [hnext] at hends
  generalize hres : Host.Outcome.next t = res at hends
  cases hends with
  | trap e info => cases hres; exact h.trapped e info
  | @retired len u hlen hu =>
    cases hres
    have hcur : curPc u = curPc s := by rw [curPc, curPc, hu.cfg_eq, hu.pc_eq]
    have hpc : truncX u.cfg.xlen (curPc u + BitVec.ofNat 64 len) = truncX s.cfg.xlen (s.pc + BitVec.ofNat 64 len) := by
      rw [hcur, hu.cfg_eq, curPc_eq_pc h.pcInside]
    exact h.effect hu htrap (hpc ▸ truncX_lt _ _) (hpc ▸ nextPc_aligned hlen hi h.pcAligned) _
  | jumped target rd v haligned hinside =>
    cases hres
    exact h.effect (i := i) (.integer rd v) htrap hinside (by simpa [targetMisaligned] using haligned) _

/-- A word rounded down to a multiple. -/
theorem roundDown_toNat (v : Word) (k : Nat) :
    (v - BitVec.ofNat 64 (v.toNat % k)).toNat = v.toNat / k * k := by
  have hle : v.toNat % k ≤ v.toNat := Nat.mod_le _ _
  have hdiv := Nat.div_add_mod' v.toNat k
  rw [BitVec.toNat_sub_of_le] <;> simp [BitVec.le_def, Nat.mod_eq_of_lt (hle.trans_lt v.isLt)] <;> omega

theorem resume_cfg (reply : HandlerReply) (s : State) : (resume reply s).cfg = s.cfg :=
  envWrite_cfg 1 (wrapCells s.cfg reply.writes) s

theorem resume_pc (reply : HandlerReply) (s : State) :
    (resume reply s).pc.toNat =
      (truncX s.cfg.xlen reply.regs.pc).toNat / ialignBytes s.cfg * ialignBytes s.cfg := roundDown_toNat _ _

/-- What the environment resumes with is within the widths, aligned, and with no trap or loop. -/
theorem State.Inv.resume {s : State} (h : s.Inv) (reply : HandlerReply) : (resume reply s).Inv where
  memCanonical := (MemInside.envWrite ⟨h.memCanonical, h.memInside⟩ 1 reply.writes).1
  memInside := (MemInside.envWrite ⟨h.memCanonical, h.memInside⟩ 1 reply.writes).2
  pcInside := by
    rw [resume_pc, resume_cfg]
    exact (Nat.div_mul_le_self _ _).trans_lt (truncX_lt _ _)
  pcAligned := by
    rw [resume_pc, resume_cfg]
    exact Nat.mul_mod_left ..
  xInside r := by
    simp only [Machine.resume, Fin.getElem_fin, Vector.getElem_map, envWrite_cfg]
    exact truncX_lt _ _
  fInside r := by
    simp only [Machine.resume, Fin.getElem_fin, Vector.getElem_map, envWrite_cfg]
    exact truncF_lt _ _
  reservationCovers r hr := by
    rcases bind_reservationAfter s.draw 1 (wrapCells s.cfg reply.writes) s.reservation with he | he
    · exact h.reservationCovers r (he.symm.trans hr)
    · exact absurd (he.symm.trans hr) nofun
  loopBounded w hw := absurd hw nofun
  trapAtPc r hr := absurd hr nofun

/-- Settles O58: along the branches of a step. -/
theorem stepKeepsInvariant : Obligations.StepKeepsInvariant := by
  intro s t h hstep
  obtain ⟨r, -, hres⟩ | ⟨-, -, hres⟩ | ⟨htrap, w, -, ⟨r, -, hres⟩ | ⟨i, hi, hres⟩⟩ := step_cases s
  · obtain ⟨-, hr⟩ | ⟨-, -, hr⟩ | ⟨-, reply, -, hr⟩ := resolveTrap_cases r (startStep s)
    · exact absurd (hstep.symm.trans (hres.trans hr)) nofun
    · exact absurd (hstep.symm.trans (hres.trans hr)) nofun
    · cases hstep.symm.trans (hres.trans hr)
      exact h.startStep.resume reply
  · cases hstep.symm.trans hres
    exact h.startStep.trapped _ _
  · cases hstep.symm.trans (hres.trans (illegal_eq ..))
    exact h.startStep.trapped _ _
  · have hwf := (encodeOfDecode s.cfg w i hi).1
    have ha : i.available s.cfg = true := by
      rw [Instr.wf, Bool.and_eq_true] at hwf
      exact hwf.1
    exact exec_keeps_inv (by simpa using ha) (h.startStep.observe i) (by simpa using htrap) (hres.symm.trans hstep)

/-! ### The launch -/

theorem Launch.Admitted.inv {c : Cfg} {l : Launch} (h : l.Admitted c) : (State.launch c l).Inv where
  memCanonical := h.memCanonical
  memInside := h.memInside
  pcInside := h.entryInside
  pcAligned := h.entryAligned
  xInside := h.xInside
  fInside := h.fInside
  reservationCovers _ hr := absurd hr nofun
  loopBounded _ hw := absurd hw nofun
  trapAtPc _ hr := absurd hr nofun

/-- The parameters at reset are admitted: address 0 may be fetched from, and everything else is zero. -/
theorem launchZero_admitted : (Launch.zero 0).Admitted Config.reset where
  entryInside := Nat.two_pow_pos _
  entryAligned := Nat.zero_mod _
  entryFetched := by decide
  memCanonical := rfl
  memInside _ hd := absurd hd List.not_mem_nil
  xInside r := by simp [Launch.zero]
  fInside r := by simp [Launch.zero]

/-- Settles O59. -/
theorem resetInvariant : Obligations.ResetInvariant := ⟨fun _ _ h => h.inv, launchZero_admitted.inv⟩

end Sys2Proof.Machine
end
section
/-! PROOFS. The integer computational instructions, the multiplications and divisions: each is one of the shared shapes,
whose operation is the one of the statement. -/

namespace Sys2Proof.Machine

/-! ### The operations in the library's terms -/

theorem aluSlt_eq : aluSlt = fun w a b => if a.slt b then 1#w else 0#w := by
  funext w a b
  simp only [aluSlt, BitVec.slt_eq_decide, decide_eq_true_eq]
  split <;> rfl

theorem aluSltu_eq : aluSltu = fun w a b => if a.ult b then 1#w else 0#w := by
  funext w a b
  simp only [aluSltu, BitVec.ult_eq_decide, decide_eq_true_eq]
  split <;> rfl

theorem aluDiv_eq : aluDiv = fun w a b => if b = 0#w then BitVec.allOnes w else a.sdiv b := by
  funext w a b
  split
  · rename_i h
    rw [h, aluDiv_zero]
  · rename_i h
    exact aluDiv_of_ne_zero a h

theorem aluDivu_eq : aluDivu = fun w a b => if b = 0#w then BitVec.allOnes w else a / b := by
  funext w a b
  split
  · rename_i h
    rw [h, aluDivu_zero]
  · rename_i h
    exact aluDivu_of_ne_zero a h

theorem aluRem_eq : aluRem = fun w a b => if b = 0#w then a else a.srem b := by
  funext w a b
  split
  · rename_i h
    rw [h, aluRem_zero]
  · exact aluRem_eq_srem w a b

theorem aluRemu_eq : aluRemu = fun w a b => if b = 0#w then a else a % b := by
  funext w a b
  split
  · rename_i h
    rw [h, aluRemu_zero]
  · exact aluRemu_eq_umod w a b

/-! ### Products of twice the width -/

theorem signExtend_eq_ofInt {w : Nat} (a : BitVec w) (n : Nat) : a.signExtend n = BitVec.ofInt n a.toInt := rfl

theorem setWidth_eq_ofInt {w : Nat} (a : BitVec w) (n : Nat) : a.setWidth n = BitVec.ofInt n (a.toNat : Int) := by
  rw [BitVec.ofInt_natCast, BitVec.ofNat_toNat]

/-- The high half of a product is the one of its integer. -/
theorem extractLsb'_high_ofInt (w : Nat) (p : Int) : (BitVec.ofInt (2 * w) p).extractLsb' w w = highHalf w p := by
  have hpos : (0 : Int) < 2 ^ w := by positivity
  rw [highHalf, ← BitVec.toNat_inj, BitVec.extractLsb'_toNat, BitVec.toNat_ofInt, BitVec.toNat_ofInt,
    Nat.shiftRight_eq_div_pow]
  zify
  rw [Int.toNat_of_nonneg (Int.emod_nonneg _ (by positivity)), Int.toNat_of_nonneg (Int.emod_nonneg _ (by positivity)),
    Nat.two_mul, pow_add, Int.emod_def p, mul_assoc, sub_eq_add_neg, ← mul_neg, Int.add_mul_ediv_left _ _ hpos.ne',
    ← mul_neg, Int.add_mul_emod_self_left]

theorem setWidth_signExtend_double {w : Nat} (a : BitVec w) : (a.signExtend (2 * w)).setWidth w = a := by
  apply BitVec.eq_of_getLsbD_eq
  intro i hi
  rw [BitVec.getLsbD_setWidth, BitVec.getLsbD_signExtend, if_pos hi]
  simp [hi, show i < 2 * w by omega]

theorem aluMul_eq : aluMul = fun w a b => (a.signExtend (2 * w) * b.signExtend (2 * w)).extractLsb' 0 w := by
  funext w a b
  rw [← BitVec.setWidth_eq_extractLsb' (by omega), BitVec.setWidth_mul _ _ (by omega), setWidth_signExtend_double,
    setWidth_signExtend_double, aluMul]

theorem aluMulh_eq : aluMulh = fun w a b => (a.signExtend (2 * w) * b.signExtend (2 * w)).extractLsb' w w := by
  funext w a b
  rw [signExtend_eq_ofInt, signExtend_eq_ofInt, ← BitVec.ofInt_mul, extractLsb'_high_ofInt, aluMulh]

theorem aluMulhsu_eq : aluMulhsu = fun w a b => (a.signExtend (2 * w) * b.setWidth (2 * w)).extractLsb' w w := by
  funext w a b
  rw [signExtend_eq_ofInt, setWidth_eq_ofInt, ← BitVec.ofInt_mul, extractLsb'_high_ofInt, aluMulhsu]

theorem aluMulhu_eq : aluMulhu = fun w a b => (a.setWidth (2 * w) * b.setWidth (2 * w)).extractLsb' w w := by
  funext w a b
  rw [setWidth_eq_ofInt, setWidth_eq_ofInt, ← BitVec.ofInt_mul, extractLsb'_high_ofInt, aluMulhu]

/-! ### Immediates -/

/-- An operation at width XLEN reads only the low XLEN bits of its second operand. -/
theorem aluAtXlen_truncX (c : Xlen) (op : AluOp) (a b : Word) :
    aluAtXlen c op a (truncX c b) = aluAtXlen c op a b := by
  cases c with
  | rv32 => rw [aluAtXlen, aluAtXlen, truncX, BitVec.setWidth_setWidth_of_le _ (by decide), BitVec.setWidth_eq]
  | rv64 => rfl

/-- Bits with zeros appended, sign-extended, are the sign-extended bits shifted. -/
theorem signExtend_append_zero {n : Nat} (v : BitVec (n + 1)) (k m : Nat) :
    (v ++ 0#k).signExtend m = v.signExtend m <<< k := by
  apply BitVec.eq_of_getLsbD_eq
  intro i hi
  rw [BitVec.getLsbD_signExtend, BitVec.getLsbD_shiftLeft, BitVec.getLsbD_signExtend, BitVec.getLsbD_append]
  by_cases hk : i < k
  · simp [hk, hi, show i < n + 1 + k by omega]
  · by_cases hn : i - k < n + 1
    · simp [hk, hi, hn, show i < n + 1 + k by omega, show i - k < m by omega]
    · simp [hk, hi, hn, show ¬ i < n + 1 + k by omega, show i - k < m by omega, BitVec.msb_append]

/-! ### The shapes with the operation of a statement -/

/-- `regImm_spec` with the immediate as it is. -/
theorem regImm_untruncated_spec (len : Nat) (op : AluOp) (rd rs1 : RegNum) (imm : Word) (s : State) :
    ∃ t, regImm len op rd rs1 imm s = .next t ∧ Retired len s t ∧
      readX rd t = writtenX s.cfg.xlen rd (aluAtXlen s.cfg.xlen op (readX rs1 s) imm) ∧
      KeptXBut rd s t ∧ KeptBeyondX s t := by
  rw [← aluAtXlen_truncX]
  exact regImm_spec len op rd rs1 imm s

/-- What a word instruction of RV64 writes. -/
theorem writtenX_aluW {c : Xlen} (hc : c = .rv64) (op : AluOp) (rd : RegNum) (a b : Word) :
    writtenX c rd (aluW c op a b) = if rd = 0 then 0 else (op 32 (a.setWidth 32) (b.setWidth 32)).signExtend 64 := by
  subst hc
  rfl

/-- Settles O1: the ten are the shape `regReg` with their operation. -/
theorem registerRegisterResult : Obligations.RegisterRegisterResult := by
  intro s rd rs1 rs2 i op h
  have hspec := fun op => regReg_spec 4 op rd rs1 rs2 s
  simp only [List.mem_cons, List.not_mem_nil, or_false, Prod.mk.injEq] at h
  obtain ⟨rfl, rfl⟩ | ⟨rfl, rfl⟩ | ⟨rfl, rfl⟩ | ⟨rfl, rfl⟩ | ⟨rfl, rfl⟩ | ⟨rfl, rfl⟩ | ⟨rfl, rfl⟩ | ⟨rfl, rfl⟩ |
    ⟨rfl, rfl⟩ | ⟨rfl, rfl⟩ := h
  · exact hspec aluAdd
  · exact hspec aluSub
  · exact hspec aluSll
  · exact aluSlt_eq ▸ hspec aluSlt
  · exact aluSltu_eq ▸ hspec aluSltu
  · exact hspec aluXor
  · exact hspec aluSrl
  · exact hspec aluSra
  · exact hspec aluOr
  · exact hspec aluAnd

/-- Settles O2: the nine are the shape `regImm`. -/
theorem registerImmediateResult : Obligations.RegisterImmediateResult := by
  intro s rd rs1 imm shamt i op b h
  have hspec := fun op b => regImm_untruncated_spec 4 op rd rs1 b s
  simp only [List.mem_cons, List.not_mem_nil, or_false, Prod.mk.injEq] at h
  obtain ⟨rfl, rfl, rfl⟩ | ⟨rfl, rfl, rfl⟩ | ⟨rfl, rfl, rfl⟩ | ⟨rfl, rfl, rfl⟩ | ⟨rfl, rfl, rfl⟩ | ⟨rfl, rfl, rfl⟩ |
    ⟨rfl, rfl, rfl⟩ | ⟨rfl, rfl, rfl⟩ | ⟨rfl, rfl, rfl⟩ := h
  · exact hspec aluAdd _
  · exact aluSlt_eq ▸ hspec aluSlt _
  · exact aluSltu_eq ▸ hspec aluSltu _
  · exact hspec aluXor _
  · exact hspec aluOr _
  · exact hspec aluAnd _
  · exact hspec aluSll _
  · exact hspec aluSrl _
  · exact hspec aluSra _

/-- Settles O3. -/
theorem upperImmediateResult : Obligations.UpperImmediateResult := by
  intro s rd imm i v h
  simp only [List.mem_cons, List.not_mem_nil, or_false, Prod.mk.injEq] at h
  obtain ⟨rfl, rfl⟩ | ⟨rfl, rfl⟩ := h
  · rw [← signExtend_append_zero]
    exact loadImm_spec 4 rd (immU imm) s
  · rw [← signExtend_append_zero]
    exact pcRelative_spec 4 rd (immU imm) s

/-- A shift amount of 5 bits is less than 32. -/
theorem shamt_mod (shamt : BitVec 5) : ((shamt.setWidth 64).setWidth 32).toNat % 32 = ((shamt.setWidth 64).setWidth 32).toNat := by
  have := shamt.isLt
  simp only [BitVec.toNat_setWidth]
  omega

/-- Settles O4: the shapes `regImmW` and `regRegW`. -/
theorem wordResult : Obligations.WordResult := by
  intro s rd rs1 rs2 imm shamt i op b hx h
  have hreg := fun op => regRegW_spec 4 op rd rs1 rs2 s
  have himm := fun op b => regImmW_spec 4 op rd rs1 b s
  simp only [writtenX_aluW hx] at hreg himm
  simp only [List.mem_cons, List.not_mem_nil, or_false, Prod.mk.injEq] at h
  obtain ⟨rfl, rfl, rfl⟩ | ⟨rfl, rfl, rfl⟩ | ⟨rfl, rfl, rfl⟩ | ⟨rfl, rfl, rfl⟩ | ⟨rfl, rfl, rfl⟩ | ⟨rfl, rfl, rfl⟩ |
    ⟨rfl, rfl, rfl⟩ | ⟨rfl, rfl, rfl⟩ | ⟨rfl, rfl, rfl⟩ := h
  · exact himm aluAdd _
  · beta_reduce
    rw [← shamt_mod]
    exact himm aluSll _
  · beta_reduce
    rw [← shamt_mod]
    exact himm aluSrl _
  · beta_reduce
    rw [← shamt_mod]
    exact himm aluSra _
  · exact hreg aluAdd
  · exact hreg aluSub
  · exact hreg aluSll
  · exact hreg aluSrl
  · exact hreg aluSra

/-- Settles O5: the shape `regReg` with the operations in the library's terms. -/
theorem multiplyDivideResult : Obligations.MultiplyDivideResult := by
  intro s rd rs1 rs2 i op h
  have hspec := fun op => regReg_spec 4 op rd rs1 rs2 s
  simp only [List.mem_cons, List.not_mem_nil, or_false, Prod.mk.injEq] at h
  obtain ⟨rfl, rfl⟩ | ⟨rfl, rfl⟩ | ⟨rfl, rfl⟩ | ⟨rfl, rfl⟩ | ⟨rfl, rfl⟩ | ⟨rfl, rfl⟩ | ⟨rfl, rfl⟩ | ⟨rfl, rfl⟩ := h
  · exact aluMul_eq ▸ hspec aluMul
  · exact aluMulh_eq ▸ hspec aluMulh
  · exact aluMulhsu_eq ▸ hspec aluMulhsu
  · exact aluMulhu_eq ▸ hspec aluMulhu
  · exact aluDiv_eq ▸ hspec aluDiv
  · exact aluDivu_eq ▸ hspec aluDivu
  · exact aluRem_eq ▸ hspec aluRem
  · exact aluRemu_eq ▸ hspec aluRemu

/-- Settles O6: the shape `regRegW` with the same operations at width 32. -/
theorem wordMultiplyDivideResult : Obligations.WordMultiplyDivideResult := by
  intro s rd rs1 rs2 i op hx h
  have hspec : ∀ (op : AluOp) {op32 : BitVec 32 → BitVec 32 → BitVec 32}, op 32 = op32 →
      ∃ t, regRegW 4 op rd rs1 rs2 s = .next t ∧ Retired 4 s t ∧
        readX rd t = (if rd = 0 then 0 else
          (op32 ((readX rs1 s).setWidth 32) ((readX rs2 s).setWidth 32)).signExtend 64) ∧
        KeptXBut rd s t ∧ KeptBeyondX s t := by
    rintro op _ rfl
    rw [← writtenX_aluW hx]
    exact regRegW_spec 4 op rd rs1 rs2 s
  simp only [List.mem_cons, List.not_mem_nil, or_false, Prod.mk.injEq] at h
  obtain ⟨rfl, rfl⟩ | ⟨rfl, rfl⟩ | ⟨rfl, rfl⟩ | ⟨rfl, rfl⟩ | ⟨rfl, rfl⟩ := h
  · exact hspec aluMul rfl
  · have h := hspec aluDiv (congrFun aluDiv_eq 32)
    exact h
  · have h := hspec aluDivu (congrFun aluDivu_eq 32)
    exact h
  · have h := hspec aluRem (congrFun aluRem_eq 32)
    exact h
  · have h := hspec aluRemu (congrFun aluRemu_eq 32)
    exact h

end Sys2Proof.Machine
end
section
/-! PROOFS. Control transfer, the hints and the environment instructions (40_rv32i_base.md R290 to R322). -/

namespace Sys2Proof.Machine

/-! ### Targets -/

theorem immJ_eq (imm : BitVec 20) : immJ imm = imm.signExtend 64 <<< 1 := signExtend_append_zero imm 1 64
theorem immB_eq (imm : BitVec 12) : immB imm = imm.signExtend 64 <<< 1 := signExtend_append_zero imm 1 64
theorem cOffJ_eq (off : BitVec 11) : cOffJ off = off.signExtend 64 <<< 1 := signExtend_append_zero off 1 64
theorem cOffB_eq (off : BitVec 8) : cOffB off = off.signExtend 64 <<< 1 := signExtend_append_zero off 1 64

/-- The lowest bit may be cleared before the cut to XLEN bits or after it. -/
theorem truncX_and_not_one (c : Xlen) (v : Word) : truncX c v &&& ~~~1 = truncX c (v &&& ~~~1#64) := by
  cases c with
  | rv64 => rfl
  | rv32 =>
    rw [truncX, truncX]
    ext i hi
    simp only [BitVec.getElem_and, BitVec.getElem_setWidth, BitVec.getLsbD_setWidth, BitVec.getLsbD_and]
    by_cases h : i < 32
    · simp [h, ← BitVec.getLsbD_eq_getElem]
    · simp [h]

theorem targetMisaligned_eq_false {c : Cfg} {t : Word} : targetMisaligned c t = false ↔ t.toNat % ialignBytes c = 0 := by
  simp [targetMisaligned]

theorem targetMisaligned_eq_true {c : Cfg} {t : Word} : targetMisaligned c t = true ↔ t.toNat % ialignBytes c ≠ 0 := by
  simp [targetMisaligned]

/-- A jump, in the two cases of its target. -/
theorem jumpAndLink_spec (len : Nat) (rd : RegNum) (target : Word) (s : State) :
    (target.toNat % ialignBytes s.cfg = 0 →
      ∃ t, jumpAndLink len rd target s = .next t ∧ Jumped target s t ∧
        readX rd t = writtenX s.cfg.xlen rd (curPc s + BitVec.ofNat 64 len) ∧ KeptXBut rd s t ∧ KeptBeyondX s t) ∧
    (target.toNat % ialignBytes s.cfg ≠ 0 →
      jumpAndLink len rd target s = .next (trapped .instrAddrMisaligned target s)) := by
  rw [← targetMisaligned_eq_false, ← targetMisaligned_eq_true]
  obtain ⟨hmis, hnext⟩ | ⟨hal, t, hnext, hjump, hlink, hx, hrest⟩ := jumpAndLink_cases len rd target s
  · exact ⟨fun h => absurd (h.symm.trans hmis) nofun, fun _ => hnext⟩
  · refine ⟨fun _ => ⟨t, hnext, hjump, hlink.trans (writtenX_congr rd ?_), hx, hrest⟩,
      fun h => absurd (h.symm.trans hal) nofun⟩
    rw [linkValue, truncX_truncX]

/-- Settles O8: the six are jumps to their target, with their link register and length. -/
theorem jumpResult : Obligations.JumpResult := by
  intro s rd rs1 imm off coff i len link target h
  have hspec := fun len link => jumpAndLink_spec len link (truncX s.cfg.xlen target) s
  simp only [List.mem_cons, List.not_mem_nil, or_false, Prod.mk.injEq] at h
  obtain ⟨rfl, rfl, rfl, rfl⟩ | ⟨rfl, rfl, rfl, rfl⟩ | ⟨rfl, rfl, rfl, rfl⟩ | ⟨rfl, rfl, rfl, rfl⟩ |
    ⟨rfl, rfl, rfl, rfl⟩ | ⟨rfl, rfl, rfl, rfl⟩ := h
  · rw [← immJ_eq] at hspec ⊢
    exact hspec 4 _
  · rw [← truncX_and_not_one] at hspec ⊢
    exact hspec 4 _
  · rw [← cOffJ_eq] at hspec ⊢
    exact hspec 2 0
  · rw [← cOffJ_eq] at hspec ⊢
    exact hspec 2 1
  · rw [← truncX_and_not_one, ← BitVec.add_zero (readX rs1 s)] at hspec ⊢
    exact hspec 2 0
  · rw [← truncX_and_not_one, ← BitVec.add_zero (readX rs1 s)] at hspec ⊢
    exact hspec 2 1

/-! ### Comparisons at width XLEN -/

theorem readX_setWidth_toNat {s : State} (r : RegNum) (h : s.cfg.xlen = .rv32) :
    ((readX r s).setWidth 32).toNat = (readX r s).toNat := by
  have hlt : (readX r s).toNat < 2 ^ 32 := by
    have := truncX_lt s.cfg.xlen (readX r s)
    rwa [truncX_readX, h] at this
  rw [BitVec.toNat_setWidth, Nat.mod_eq_of_lt hlt]

/-- A comparison of the registers' values as numbers is the same at both widths. -/
theorem cmpAtXlen_readX {op : CmpOp} {p : Nat → Nat → Bool} (hop : ∀ w a b, op w a b = p a.toNat b.toNat)
    (r q : RegNum) (s : State) :
    cmpAtXlen s.cfg.xlen op (readX r s) (readX q s) = p (readX r s).toNat (readX q s).toNat := by
  cases h : s.cfg.xlen with
  | rv32 => rw [cmpAtXlen, hop, readX_setWidth_toNat r h, readX_setWidth_toNat q h]
  | rv64 => rw [cmpAtXlen, hop]

theorem cmpEq_readX (r q : RegNum) (s : State) :
    cmpAtXlen s.cfg.xlen cmpEq (readX r s) (readX q s) = (readX r s == readX q s) := by
  rw [cmpAtXlen_readX (p := fun a b => a == b) fun w a b => by simp [cmpEq, BitVec.toNat_eq, beq_eq_decide]]
  simp [BitVec.toNat_eq, beq_eq_decide]

theorem cmpNe_readX (r q : RegNum) (s : State) :
    cmpAtXlen s.cfg.xlen cmpNe (readX r s) (readX q s) = (readX r s != readX q s) := by
  rw [cmpAtXlen_readX (p := fun a b => a != b) fun w a b => by simp [cmpNe, BitVec.toNat_eq, bne, beq_eq_decide]]
  simp [BitVec.toNat_eq, bne, beq_eq_decide]

theorem cmpLtu_readX (r q : RegNum) (s : State) :
    cmpAtXlen s.cfg.xlen cmpLtu (readX r s) (readX q s) = (readX r s).ult (readX q s) := by
  rw [cmpAtXlen_readX (op := cmpLtu) (p := fun a b => decide (a < b)) fun w a b => rfl]
  rfl

theorem cmpGeu_readX (r q : RegNum) (s : State) :
    cmpAtXlen s.cfg.xlen cmpGeu (readX r s) (readX q s) = !(readX r s).ult (readX q s) := by
  rw [cmpAtXlen_readX (op := cmpGeu) (p := fun a b => decide (b ≤ a)) fun w a b => rfl]
  simp [BitVec.ult, ← decide_not]

theorem cmpLt_eq : cmpLt = fun _ a b => a.slt b := rfl

theorem cmpGe_eq (c : Xlen) (a b : Word) : cmpAtXlen c cmpGe a b = !cmpAtXlen c (fun _ a b => a.slt b) a b := by
  cases c <;> simp [cmpAtXlen, cmpGe, BitVec.slt, ← decide_not]

/-- A branch, in the three cases of its condition and target. -/
theorem branch_spec {len : Nat} {cmp : CmpOp} {rs1 rs2 : RegNum} {off : Word} {s : State} {taken : Bool}
    (htaken : cmpAtXlen s.cfg.xlen cmp (readX rs1 s) (readX rs2 s) = taken) :
    (taken = false → ∃ t, branch len cmp rs1 rs2 off s = .next t ∧ Retired len s t ∧ KeptX s t ∧ KeptBeyondX s t) ∧
    (taken = true → (truncX s.cfg.xlen (curPc s + off)).toNat % ialignBytes s.cfg = 0 →
      ∃ t, branch len cmp rs1 rs2 off s = .next t ∧ Jumped (truncX s.cfg.xlen (curPc s + off)) s t ∧ KeptX s t ∧
        KeptBeyondX s t) ∧
    (taken = true → (truncX s.cfg.xlen (curPc s + off)).toNat % ialignBytes s.cfg ≠ 0 →
      branch len cmp rs1 rs2 off s =
        .next (trapped .instrAddrMisaligned (truncX s.cfg.xlen (curPc s + off)) s)) := by
  rw [← targetMisaligned_eq_false, ← targetMisaligned_eq_true, ← htaken]
  obtain ⟨hc, h⟩ | ⟨hc, hmis, h⟩ | ⟨hc, hal, h⟩ := branch_cases len cmp rs1 rs2 off s
  · exact ⟨fun _ => h, fun ht => absurd (ht.symm.trans hc) nofun, fun ht => absurd (ht.symm.trans hc) nofun⟩
  · exact ⟨fun ht => absurd (ht.symm.trans hc) nofun, fun _ hal => absurd (hal.symm.trans hmis) nofun, fun _ _ => h⟩
  · exact ⟨fun ht => absurd (ht.symm.trans hc) nofun, fun _ _ => h, fun _ hmis => absurd (hmis.symm.trans hal) nofun⟩

/-- Settles O9: the eight are branches with their comparison. -/
theorem branchResult : Obligations.BranchResult := by
  intro s rs1 rs2 crs1 imm off i len taken target h
  simp only [List.mem_cons, List.not_mem_nil, or_false, Prod.mk.injEq, ← immB_eq, ← cOffB_eq] at h
  obtain ⟨rfl, rfl, rfl, rfl⟩ | ⟨rfl, rfl, rfl, rfl⟩ | ⟨rfl, rfl, rfl, rfl⟩ | ⟨rfl, rfl, rfl, rfl⟩ |
    ⟨rfl, rfl, rfl, rfl⟩ | ⟨rfl, rfl, rfl, rfl⟩ | ⟨rfl, rfl, rfl, rfl⟩ | ⟨rfl, rfl, rfl, rfl⟩ := h
  · exact branch_spec (cmpEq_readX rs1 rs2 s)
  · exact branch_spec (cmpNe_readX rs1 rs2 s)
  · exact branch_spec (cmp := cmpLt) rfl
  · exact branch_spec (cmpGe_eq ..)
  · exact branch_spec (cmpLtu_readX rs1 rs2 s)
  · exact branch_spec (cmpGeu_readX rs1 rs2 s)
  · exact branch_spec (readX_zero s ▸ cmpEq_readX (cReg crs1) 0 s)
  · exact branch_spec (readX_zero s ▸ cmpNe_readX (cReg crs1) 0 s)

/-! ### Traps and hints -/

/-- Settles O43: taking an exception is the record and nothing else. -/
theorem environmentTraps : Obligations.EnvironmentTraps := fun s =>
  ⟨raise_eq .environmentCall 0 s, raise_eq .breakpoint (curPc s) s, raise_eq .breakpoint (curPc s) s⟩

/-- Settles O45: the shape `noEffect`. -/
theorem hintAndFenceResult : Obligations.HintAndFenceResult := by
  intro s fm pred succ rs1 rd imm i len h
  have hspec := fun len => noEffect_spec len s
  simp only [List.mem_cons, List.not_mem_nil, or_false, Prod.mk.injEq] at h
  obtain ⟨rfl, rfl⟩ | ⟨rfl, rfl⟩ | ⟨rfl, rfl⟩ | ⟨rfl, rfl⟩ | ⟨rfl, rfl⟩ | ⟨rfl, rfl⟩ | ⟨rfl, rfl⟩ | ⟨rfl, rfl⟩ |
    ⟨rfl, rfl⟩ | ⟨rfl, rfl⟩ | ⟨rfl, rfl⟩ | ⟨rfl, rfl⟩ := h
  all_goals exact hspec _

end Sys2Proof.Machine
end
section
/-! PROOFS. The compressed instructions: their results (48_c.md R840 to R857), and that each is its expansion but for the
length (R802, R803). -/

namespace Sys2Proof.Machine

/-! ### The low bits of a result -/

theorem xlenBits_le (c : Xlen) : c.bits ≤ 64 := by cases c <;> decide

/-- An operation whose low bits depend on the low bits of its operands alone, in the same way at every width. -/
def LowBits (op : AluOp) (f : Word → Word → Word) : Prop :=
  ∀ (w : Nat) (a b : Word), w ≤ 64 → op w (a.setWidth w) (b.setWidth w) = (f a b).setWidth w

theorem lowBits_add : LowBits aluAdd (· + ·) := fun _ a b h => (BitVec.setWidth_add a b h).symm

theorem lowBits_sub : LowBits aluSub (· - ·) := fun w a b h => by
  dsimp only [aluSub]
  rw [BitVec.sub_eq_add_neg, BitVec.sub_eq_add_neg, BitVec.setWidth_add _ _ h, BitVec.setWidth_neg_of_le h]

theorem lowBits_and : LowBits aluAnd (· &&& ·) := fun _ _ _ _ => BitVec.setWidth_and.symm
theorem lowBits_or : LowBits aluOr (· ||| ·) := fun _ _ _ _ => BitVec.setWidth_or.symm
theorem lowBits_xor : LowBits aluXor (· ^^^ ·) := fun _ _ _ _ => BitVec.setWidth_xor.symm

section Results

variable {op : AluOp} {f : Word → Word → Word} {s : State}

theorem regImm_value (h : LowBits op f) (len : Nat) (rd rs1 : RegNum) (imm : Word) :
    ∃ t, regImm len op rd rs1 imm s = .next t ∧ Retired len s t ∧
      readX rd t = writtenX s.cfg.xlen rd (f (readX rs1 s) imm) ∧ KeptXBut rd s t ∧ KeptBeyondX s t := by
  rw [← writtenX_congr rd (truncX_aluAtXlen (h _ _ _ (xlenBits_le _)))]
  exact regImm_untruncated_spec len op rd rs1 imm s

theorem regReg_value (h : LowBits op f) (len : Nat) (rd rs1 rs2 : RegNum) :
    ∃ t, regReg len op rd rs1 rs2 s = .next t ∧ Retired len s t ∧
      readX rd t = writtenX s.cfg.xlen rd (f (readX rs1 s) (readX rs2 s)) ∧ KeptXBut rd s t ∧ KeptBeyondX s t := by
  rw [← writtenX_congr rd (truncX_aluAtXlen (h _ _ _ (xlenBits_le _)))]
  exact regReg_spec len op rd rs1 rs2 s

/-- A word result, sign-extended and then cut to XLEN bits. -/
theorem writtenX_aluW_value (h : LowBits op f) (c : Xlen) (rd : RegNum) (a b : Word) :
    writtenX c rd (aluW c op a b) = writtenX c rd (((f a b).setWidth 32).signExtend 64) := by
  apply writtenX_congr
  rw [aluW, sextX, truncX_truncX, h 32 a b (by decide)]

theorem regImmW_value (h : LowBits op f) (len : Nat) (rd rs1 : RegNum) (imm : Word) :
    ∃ t, regImmW len op rd rs1 imm s = .next t ∧ Retired len s t ∧
      readX rd t = writtenX s.cfg.xlen rd (((f (readX rs1 s) imm).setWidth 32).signExtend 64) ∧
      KeptXBut rd s t ∧ KeptBeyondX s t := by
  rw [← writtenX_aluW_value h]
  exact regImmW_spec len op rd rs1 imm s

theorem regRegW_value (h : LowBits op f) (len : Nat) (rd rs1 rs2 : RegNum) :
    ∃ t, regRegW len op rd rs1 rs2 s = .next t ∧ Retired len s t ∧
      readX rd t = writtenX s.cfg.xlen rd (((f (readX rs1 s) (readX rs2 s)).setWidth 32).signExtend 64) ∧
      KeptXBut rd s t ∧ KeptBeyondX s t := by
  rw [← writtenX_aluW_value h]
  exact regRegW_spec len op rd rs1 rs2 s

end Results

/-! ### Compressed immediates -/

theorem cImm4spn_eq (u : BitVec 8) : cImm4spn u = BitVec.ofNat 64 (4 * u.toNat) := by
  apply BitVec.eq_of_toNat_eq
  simp only [cImm4spn, BitVec.toNat_setWidth, BitVec.toNat_append, BitVec.toNat_ofNat, Nat.shiftLeft_eq]
  simp [Nat.mul_comm]

theorem cImm16sp_eq (imm : BitVec 6) : cImm16sp imm = imm.signExtend 64 <<< 4 := signExtend_append_zero imm 4 64
theorem cImmLui_eq (imm : BitVec 6) : cImmLui imm = imm.signExtend 64 <<< 12 := signExtend_append_zero imm 12 64

/-- Settles O47: the compressed forms are the shared shapes of length 2 with an operation on the low bits. -/
theorem compressedIntegerResult : Obligations.CompressedIntegerResult := by
  intro s rd rs2 crd crs2 u8 imm shamt i d v h
  simp only [List.mem_cons, List.not_mem_nil, or_false, Prod.mk.injEq, ← cImm4spn_eq, ← cImm16sp_eq, ← cImmLui_eq] at h
  obtain ⟨rfl, rfl, rfl⟩ | ⟨rfl, rfl, rfl⟩ | ⟨rfl, rfl, rfl⟩ | ⟨rfl, rfl, rfl⟩ | ⟨rfl, rfl, rfl⟩ | ⟨rfl, rfl, rfl⟩ |
    ⟨rfl, rfl, rfl⟩ | ⟨rfl, rfl, rfl⟩ | ⟨rfl, rfl, rfl⟩ | ⟨rfl, rfl, rfl⟩ | ⟨rfl, rfl, rfl⟩ | ⟨rfl, rfl, rfl⟩ |
    ⟨rfl, rfl, rfl⟩ | ⟨rfl, rfl, rfl⟩ | ⟨rfl, rfl, rfl⟩ | ⟨rfl, rfl, rfl⟩ | ⟨rfl, rfl, rfl⟩ | ⟨rfl, rfl, rfl⟩ := h
  · exact regImm_value lowBits_add 2 _ 2 (cImm4spn u8)
  · exact regImm_value lowBits_add 2 _ _ (cImm6 imm)
  · exact regImmW_value lowBits_add 2 _ _ (cImm6 imm)
  · have h := regImm_value (s := s) lowBits_add 2 d 0 (cImm6 imm)
    rwa [readX_zero, zero_add] at h
  · exact regImm_value lowBits_add 2 2 2 (cImm16sp imm)
  · exact loadImm_spec 2 _ (cImmLui imm) s
  · exact regImm_untruncated_spec 2 aluSrl _ _ _ s
  · exact regImm_untruncated_spec 2 aluSra _ _ _ s
  · exact regImm_value lowBits_and 2 _ _ (cImm6 imm)
  · exact regReg_value lowBits_sub 2 _ _ _
  · exact regReg_value lowBits_xor 2 _ _ _
  · exact regReg_value lowBits_or 2 _ _ _
  · exact regReg_value lowBits_and 2 _ _ _
  · exact regRegW_value lowBits_sub 2 _ _ _
  · exact regRegW_value lowBits_add 2 _ _ _
  · exact regImm_untruncated_spec 2 aluSll _ _ _ s
  · have h := regReg_value (s := s) lowBits_add 2 d 0 rs2
    rwa [readX_zero, zero_add] at h
  · exact regReg_value lowBits_add 2 _ _ rs2

/-! ### Expansion -/

/-- The second result is the first, but that the pc moved by 2 if the first retires. -/
def ShorterBy2 (s : State) (full short : Res) : Prop :=
  ∃ t, full = .next t ∧
    short = .next { t with pc := if t.instret = s.instret then t.pc else truncX s.cfg.xlen (curPc s + 2) }

theorem shorter_retire {s u : State} (hc : u.cfg = s.cfg) (hpc : u.pc = s.pc) (hi : u.instret = s.instret) :
    ShorterBy2 s (retire 4 u) (retire 2 u) := by
  have hne : u.instret + 1 ≠ s.instret := by
    rw [hi]
    simp
  have hcur : curPc u = curPc s := by rw [curPc, curPc, hc, hpc]
  refine ⟨_, retire_eq 4 u, ?_⟩
  rw [retire_eq, if_neg hne, hcur, hc]
  rfl

theorem shorter_trap (s : State) (e : Exn) (info : Word) :
    ShorterBy2 s (.next (trapped e info s)) (.next (trapped e info s)) :=
  ⟨_, rfl, by rw [if_pos (trapped_instret e info s)]⟩

theorem shorter_writeX (s : State) (rd : RegNum) (v : Word) :
    ShorterBy2 s (retire 4 (writeX rd v s)) (retire 2 (writeX rd v s)) := shorter_retire (by simp) (by simp) (by simp)

theorem shorter_regImm (s : State) (op : AluOp) (rd rs1 : RegNum) {imm imm' : Word} (h : imm = imm') :
    ShorterBy2 s (regImm 4 op rd rs1 imm s) (regImm 2 op rd rs1 imm' s) := h ▸ shorter_writeX s rd _

theorem shorter_regImmW (s : State) (op : AluOp) (rd rs1 : RegNum) {imm imm' : Word} (h : imm = imm') :
    ShorterBy2 s (regImmW 4 op rd rs1 imm s) (regImmW 2 op rd rs1 imm' s) := h ▸ shorter_writeX s rd _

theorem shorter_loadImm (s : State) (rd : RegNum) {imm imm' : Word} (h : imm = imm') :
    ShorterBy2 s (loadImm 4 rd imm s) (loadImm 2 rd imm' s) := h ▸ shorter_writeX s rd _

/-- C.NOP expands to ADDI to `x0`. -/
theorem shorter_nop (s : State) : ShorterBy2 s (regImm 4 aluAdd 0 0 (imm12 0) s) (noEffect 2 s) := by
  rw [regImm, writeX_zero]
  exact shorter_retire rfl rfl rfl

theorem shorter_loadX (s : State) (n : Nat) (e : LoadExt) (rd rs1 : RegNum) {off off' : Word} (h : off = off') :
    ShorterBy2 s (loadX 4 n e rd rs1 off s) (loadX 2 n e rd rs1 off' s) := by
  subst h
  unfold loadX
  dsimp only
  split
  · exact shorter_trap ..
  · exact shorter_retire (by simp) (by simp) (by simp)

theorem shorter_loadF (s : State) (fmt : Fmt) (rd rs1 : RegNum) {off off' : Word} (h : off = off') :
    ShorterBy2 s (loadF 4 fmt rd rs1 off s) (loadF 2 fmt rd rs1 off' s) := by
  subst h
  unfold loadF
  dsimp only
  split
  · exact shorter_trap ..
  · exact shorter_retire (by simp) (by simp) (by simp)

theorem shorter_storeX (s : State) (n : Nat) (rs2 rs1 : RegNum) {off off' : Word} (h : off = off') :
    ShorterBy2 s (storeX 4 n rs2 rs1 off s) (storeX 2 n rs2 rs1 off' s) := by
  subst h
  unfold storeX
  dsimp only
  split
  · exact shorter_trap ..
  · exact shorter_retire (by simp) (by simp) (by simp)

theorem shorter_storeF (s : State) (fmt : Fmt) (rs2 rs1 : RegNum) {off off' : Word} (h : off = off') :
    ShorterBy2 s (storeF 4 fmt rs2 rs1 off s) (storeF 2 fmt rs2 rs1 off' s) := by
  subst h
  unfold storeF
  dsimp only
  split
  · exact shorter_trap ..
  · exact shorter_retire (by simp) (by simp) (by simp)

/-- A small positive immediate keeps its value. -/
theorem imm12_ofNat {k : Nat} (h : k < 2 ^ 11) : imm12 (BitVec.ofNat 12 k) = BitVec.ofNat 64 k := by
  have hmsb : (BitVec.ofNat 12 k).msb = false := by
    rw [BitVec.msb_eq_decide, decide_eq_false_iff_not, BitVec.toNat_ofNat]
    omega
  rw [imm12, BitVec.signExtend_eq_setWidth_of_msb_false hmsb]
  apply BitVec.eq_of_toNat_eq
  simp only [BitVec.toNat_setWidth, BitVec.toNat_ofNat]
  omega

theorem imm12_scaled {n : Nat} {k : Nat} (u : BitVec n) (h : k * 2 ^ n ≤ 2 ^ 11) (hk : 0 < k) :
    imm12 (BitVec.ofNat 12 (k * u.toNat)) = BitVec.ofNat 64 (k * u.toNat) :=
  imm12_ofNat ((Nat.mul_lt_mul_of_pos_left u.isLt hk).trans_le h)

/-- A sign extension in two steps. -/
theorem signExtend_signExtend {n : Nat} (v : BitVec n) {m l : Nat} (hn : n ≤ m) (hm : m ≤ l) :
    (v.signExtend m).signExtend l = v.signExtend l := by
  rw [← BitVec.toInt_inj, BitVec.toInt_signExtend_of_le hm, BitVec.toInt_signExtend_of_le hn,
    BitVec.toInt_signExtend_of_le (hn.trans hm)]

theorem imm12_signExtend (imm : BitVec 6) : imm12 (imm.signExtend 12) = cImm6 imm :=
  signExtend_signExtend imm (by decide) (by decide)

theorem imm12_signExtend_shift (imm : BitVec 6) : imm12 (imm.signExtend 12 <<< 4) = cImm16sp imm := by
  rw [imm12, cImm16sp, ← signExtend_append_zero, signExtend_signExtend _ (by decide) (by decide)]

theorem immU_signExtend (imm : BitVec 6) : immU (imm.signExtend 20) = cImmLui imm := by
  rw [cImmLui_eq, ← signExtend_signExtend imm (show 6 ≤ 20 by decide) (show 20 ≤ 64 by decide)]
  exact signExtend_append_zero (imm.signExtend 20) 12 64

/-- Settles O48: both are the same shape with the same immediate. -/
theorem compressedIsExpansion : Obligations.CompressedIsExpansion := by
  intro s rd rs2 crd crs1 u8 imm u6 u5 ci i h
  have h4 : ∀ u : BitVec 5, imm12 (BitVec.ofNat 12 (4 * u.toNat)) = cOffW u := fun u =>
    (imm12_scaled u (by decide) (by decide)).trans (cOffW_eq u).symm
  have h8 : ∀ u : BitVec 5, imm12 (BitVec.ofNat 12 (8 * u.toNat)) = cOffD u := fun u =>
    (imm12_scaled u (by decide) (by decide)).trans (cOffD_eq u).symm
  have h4sp : ∀ u : BitVec 6, imm12 (BitVec.ofNat 12 (4 * u.toNat)) = cOffWsp u := fun u =>
    (imm12_scaled u (by decide) (by decide)).trans (cOffWsp_eq u).symm
  have h8sp : ∀ u : BitVec 6, imm12 (BitVec.ofNat 12 (8 * u.toNat)) = cOffDsp u := fun u =>
    (imm12_scaled u (by decide) (by decide)).trans (cOffDsp_eq u).symm
  have h4spn : imm12 (BitVec.ofNat 12 (4 * u8.toNat)) = cImm4spn u8 :=
    (imm12_scaled u8 (by decide) (by decide)).trans (cImm4spn_eq u8).symm
  simp only [List.mem_cons, List.not_mem_nil, or_false, Prod.mk.injEq] at h
  obtain ⟨rfl, rfl⟩ | h := h
  · exact shorter_regImm s aluAdd _ _ h4spn
  obtain ⟨rfl, rfl⟩ | h := h
  · exact shorter_loadX s 4 .signed _ _ (h4 u5)
  obtain ⟨rfl, rfl⟩ | h := h
  · exact shorter_loadX s 8 .signed _ _ (h8 u5)
  obtain ⟨rfl, rfl⟩ | h := h
  · exact shorter_loadF s .s _ _ (h4 u5)
  obtain ⟨rfl, rfl⟩ | h := h
  · exact shorter_loadF s .d _ _ (h8 u5)
  obtain ⟨rfl, rfl⟩ | h := h
  · exact shorter_storeX s 4 _ _ (h4 u5)
  obtain ⟨rfl, rfl⟩ | h := h
  · exact shorter_storeX s 8 _ _ (h8 u5)
  obtain ⟨rfl, rfl⟩ | h := h
  · exact shorter_storeF s .s _ _ (h4 u5)
  obtain ⟨rfl, rfl⟩ | h := h
  · exact shorter_storeF s .d _ _ (h8 u5)
  obtain ⟨rfl, rfl⟩ | h := h
  · exact shorter_nop s
  obtain ⟨rfl, rfl⟩ | h := h
  · exact shorter_regImm s aluAdd _ _ (imm12_signExtend imm)
  obtain ⟨rfl, rfl⟩ | h := h
  · exact shorter_regImmW s aluAdd _ _ (imm12_signExtend imm)
  obtain ⟨rfl, rfl⟩ | h := h
  · exact shorter_regImm s aluAdd _ _ (imm12_signExtend imm)
  obtain ⟨rfl, rfl⟩ | h := h
  · exact shorter_regImm s aluAdd _ _ (imm12_signExtend_shift imm)
  obtain ⟨rfl, rfl⟩ | h := h
  · exact shorter_loadImm s _ (immU_signExtend imm)
  obtain ⟨rfl, rfl⟩ | h := h
  · exact shorter_regImm s aluSrl _ _ rfl
  obtain ⟨rfl, rfl⟩ | h := h
  · exact shorter_regImm s aluSra _ _ rfl
  obtain ⟨rfl, rfl⟩ | h := h
  · exact shorter_regImm s aluAnd _ _ (imm12_signExtend imm)
  obtain ⟨rfl, rfl⟩ | h := h
  · exact shorter_writeX s _ _
  obtain ⟨rfl, rfl⟩ | h := h
  · exact shorter_writeX s _ _
  obtain ⟨rfl, rfl⟩ | h := h
  · exact shorter_writeX s _ _
  obtain ⟨rfl, rfl⟩ | h := h
  · exact shorter_writeX s _ _
  obtain ⟨rfl, rfl⟩ | h := h
  · exact shorter_writeX s _ _
  obtain ⟨rfl, rfl⟩ | h := h
  · exact shorter_writeX s _ _
  obtain ⟨rfl, rfl⟩ | h := h
  · exact shorter_regImm s aluSll _ _ rfl
  obtain ⟨rfl, rfl⟩ | h := h
  · exact shorter_loadX s 4 .signed _ _ (h4sp u6)
  obtain ⟨rfl, rfl⟩ | h := h
  · exact shorter_loadX s 8 .signed _ _ (h8sp u6)
  obtain ⟨rfl, rfl⟩ | h := h
  · exact shorter_loadF s .s _ _ (h4sp u6)
  obtain ⟨rfl, rfl⟩ | h := h
  · exact shorter_loadF s .d _ _ (h8sp u6)
  obtain ⟨rfl, rfl⟩ | h := h
  · exact shorter_storeX s 4 _ _ (h4sp u6)
  obtain ⟨rfl, rfl⟩ | h := h
  · exact shorter_storeX s 8 _ _ (h8sp u6)
  obtain ⟨rfl, rfl⟩ | h := h
  · exact shorter_storeF s .s _ _ (h4sp u6)
  obtain ⟨rfl, rfl⟩ | h := h
  · exact shorter_storeF s .d _ _ (h8sp u6)
  obtain ⟨rfl, rfl⟩ | h := h
  · exact shorter_writeX s _ _
  obtain ⟨rfl, rfl⟩ | h := h
  · exact shorter_writeX s _ _
  obtain ⟨rfl, rfl⟩ := h
  · exact shorter_trap s _ _

end Sys2Proof.Machine
end
section
/-! PROOFS. Loads and stores: what an access leaves is not touched by the destination register, the pc and `instret`; then
each instruction is one of the shared shapes. -/

namespace Sys2Proof.Machine

/-! ### What an access leaves, in a state with the same memory -/

theorem SameMemory.trans {s t u : State} (hst : SameMemory s t) (htu : SameMemory t u) : SameMemory s u := by
  obtain ⟨hm, hs, hi, hr, hw⟩ := hst
  obtain ⟨hm', hs', hi', hr', hw'⟩ := htu
  exact ⟨hm'.trans hm, hs'.trans hs, hi'.trans hi, hr'.trans hr, hw'.trans hw⟩

section Transport

variable {w n turn : Nat} {a : Word} {v new : BitVec w} {parts : List (List Nat)} {s t u : State}

theorem ReadInParts.congr (h : ReadInParts a n v turn parts s t) (hu : SameMemory t u) :
    ReadInParts a n v turn parts s u := by
  induction parts generalizing turn s with
  | nil => exact SameMemory.trans h hu
  | cons part rest ih => exact ⟨h.1, ih h.2⟩

theorem StoredInParts.congr (h : StoredInParts a n v turn parts s t) (hu : SameMemory t u) :
    StoredInParts a n v turn parts s u := by
  induction parts generalizing turn s with
  | nil => exact SameMemory.trans h hu
  | cons part rest ih =>
    obtain ⟨m, hm, hrest⟩ := h
    exact ⟨m, hm, ih hrest⟩

/-- `u` differs from `t` only outside memory and what goes with it. -/
structure OutsideMemory (t u : State) : Prop where
  same : SameMemory t u
  cfg : u.cfg = t.cfg
  draw : u.draw = t.draw

theorem OutsideMemory.readByte_eq (h : OutsideMemory t u) (b : Nat) : readByte u b = readByte t b :=
  readByte_congr h.same.1 h.cfg h.draw b

theorem OutsideMemory.keptReservation (h : OutsideMemory t u) (ht : KeptReservation s t) : KeptReservation s u :=
  ⟨h.same.2.2.2.1.trans ht.1, h.same.2.2.2.2.trans ht.2⟩

theorem OnlyRead.congr (h : OnlyRead s t a n) (hu : OutsideMemory t u) : OnlyRead s u a n := by
  obtain ⟨hb, hs, hi⟩ := h
  exact ⟨fun b => (hu.readByte_eq b).trans (hb b), hu.same.2.1.trans hs, hu.same.2.2.1.trans hi⟩

theorem Stored.congr (h : Stored s t a n v) (hu : OutsideMemory t u) : Stored s u a n v := by
  obtain ⟨hbytes, hother, hstale⟩ := h
  exact ⟨fun k hk hio => (hu.readByte_eq _).trans (hbytes k hk hio), fun b hb => (hu.readByte_eq b).trans (hother b hb),
    fun c hc => hstale c (hu.same.2.1 ▸ hc)⟩

theorem LoadAccess.congr (h : LoadAccess s t a n v) (hu : OutsideMemory t u) : LoadAccess s u a n v := by
  obtain ⟨hsingle, hparts, hsilent⟩ := h
  refine ⟨fun hs => ?_, fun hs => ?_, fun hs => ?_⟩
  · obtain ⟨hv, hread, hres⟩ := hsingle hs
    exact ⟨hv, hread.congr hu, hu.keptReservation hres⟩
  · obtain ⟨parts, hm, hr⟩ := hparts hs
    exact ⟨parts, hm, hr.congr hu.same⟩
  · obtain ⟨hv, hb, hst, hres⟩ := hsilent hs
    exact ⟨hv, fun b => (hu.readByte_eq b).trans (hb b), hu.same.2.1.trans hst, hu.keptReservation hres⟩

theorem StoreAccess.congr (h : StoreAccess s t a n v) (hu : OutsideMemory t u) : StoreAccess s u a n v := by
  obtain ⟨hsingle, hparts, hsilent⟩ := h
  refine ⟨fun hs => ?_, fun hs => ?_, fun hs => ?_⟩
  · obtain ⟨hv, hio, hres⟩ := hsingle hs
    exact ⟨hv.congr hu, hu.same.2.2.1.trans hio, hu.keptReservation hres⟩
  · obtain ⟨parts, hm, hr⟩ := hparts hs
    exact ⟨parts, hm, hr.congr hu.same⟩
  · obtain ⟨hv, hres⟩ := hsilent hs
    exact ⟨hv.congr hu, hu.keptReservation hres⟩

theorem AmoAccess.congr (h : AmoAccess s t a n v new) (hu : OutsideMemory t u) : AmoAccess s u a n v new := by
  obtain ⟨hsingle, hparts, hsilent⟩ := h
  refine ⟨fun hs => ?_, fun hs => ?_, fun hs => ?_⟩
  · obtain ⟨hold, hnew, hio, hres⟩ := hsingle hs
    exact ⟨hold, hnew.congr hu, hu.same.2.2.1.trans hio, hu.keptReservation hres⟩
  · obtain ⟨m, reads, writes, hr, hw, hc, hd, hread, hwrite⟩ := hparts hs
    exact ⟨m, reads, writes, hr, hw, hc, hd, hread, hwrite.congr hu.same⟩
  · obtain ⟨hold, hnew, hres⟩ := hsilent hs
    exact ⟨hold, hnew.congr hu, hu.keptReservation hres⟩

end Transport

/-! ### The destination -/

/-- `retire` after a change of memory that leaves the registers. -/
theorem retire_memory_spec (len : Nat) {s u : State} (hx : u.x = s.x) (hf : u.f = s.f) (hfrm : u.frm = s.frm)
    (hfl : u.fflags = s.fflags) (hpc : u.pc = s.pc) (hin : u.instret = s.instret) (hcount : KeptCounters s u)
    (hcontrol : KeptControl s u) :
    ∃ t, retire len u = .next t ∧ OutsideMemory u t ∧ Retired len s t ∧ KeptX s t ∧ KeptF s t ∧ KeptStatus s t := by
  obtain ⟨hcfg, htrap, hdraw⟩ := hcontrol
  refine ⟨_, retire_eq len u, ⟨⟨rfl, rfl, rfl, rfl, rfl⟩, rfl, rfl⟩, ⟨?_, ?_⟩, KeptX.of_eq hx hcfg, KeptF.of_eq hf hcfg,
    ⟨hfrm, hfl⟩, hcount, hcfg, htrap, hdraw⟩
  · rw [curPc, curPc, hcfg, hpc]
  · exact congrArg (· + 1) hin

/-- An integer register written after a change of memory, and then `retire`. -/
theorem retire_writeX_memory_spec (len : Nat) (rd : RegNum) (v : Word) {s u : State} (hx : u.x = s.x) (hf : u.f = s.f)
    (hfrm : u.frm = s.frm) (hfl : u.fflags = s.fflags) (hpc : u.pc = s.pc) (hin : u.instret = s.instret)
    (hcount : KeptCounters s u) (hcontrol : KeptControl s u) :
    ∃ t, retire len (writeX rd v u) = .next t ∧ OutsideMemory u t ∧ Retired len s t ∧
      readX rd t = writtenX s.cfg.xlen rd v ∧ KeptXBut rd s t ∧ KeptF s t ∧ KeptStatus s t := by
  obtain ⟨hcfg, htrap, hdraw⟩ := hcontrol
  obtain ⟨hcycle, htime, hhpm⟩ := hcount
  refine ⟨_, retire_eq len _, ⟨⟨by simp, by simp, by simp, by simp, by simp⟩, by simp, by simp⟩, ⟨?_, ?_⟩, ?_,
    fun r hr => ?_, KeptF.of_eq (by simp [hf]) (by simp [hcfg]), ⟨by simp [hfrm], by simp [hfl]⟩,
    ⟨by simp [hcycle], by simp [htime], by simp [hhpm]⟩, by simp [hcfg], by simp [htrap], by simp [hdraw]⟩
  · simp [curPc, hcfg, hpc]
  · simp [hin]
  · rw [← hcfg]
    exact (readX_congr rd (s := writeX rd v u) rfl rfl).trans (readX_writeX_same rd v u)
  · exact ((readX_congr r (s := writeX rd v u) rfl rfl).trans (readX_writeX_ne hr v u)).trans (readX_congr r hx hcfg)

/-- A value boxed in an `f` register after a change of memory, and then `retire`. -/
theorem retire_writeFBoxed_memory_spec (len : Nat) {fmt : Fmt} (rd : RegNum) (v : FpBits fmt) {s u : State}
    (hw : fmt.width ≤ flen s.cfg) (hx : u.x = s.x) (hf : u.f = s.f) (hfrm : u.frm = s.frm) (hfl : u.fflags = s.fflags)
    (hpc : u.pc = s.pc) (hin : u.instret = s.instret) (hcount : KeptCounters s u) (hcontrol : KeptControl s u) :
    ∃ t, retire len (writeFBoxed fmt rd v u) = .next t ∧ OutsideMemory u t ∧ Retired len s t ∧
      readF rd t = box (flen s.cfg) fmt v ∧ (∀ r, r ≠ rd → readF r t = readF r s) ∧ KeptX s t ∧ KeptStatus s t := by
  obtain ⟨hcfg, htrap, hdraw⟩ := hcontrol
  refine ⟨_, retire_eq len _, ⟨⟨rfl, rfl, rfl, rfl, rfl⟩, rfl, rfl⟩, ⟨?_, ?_⟩, ?_, fun r hr => ?_,
    KeptX.of_eq hx hcfg, ⟨hfrm, hfl⟩, hcount, hcfg, htrap, hdraw⟩
  · simp [curPc, hcfg, hpc]
  · exact congrArg (· + 1) hin
  · rw [← hcfg] at hw ⊢
    exact (readF_congr rd (s := writeFBoxed fmt rd v u) rfl rfl).trans (readF_writeFBoxed_same fmt rd v u hw)
  · exact ((readF_congr r (s := writeFBoxed fmt rd v u) rfl rfl).trans (readF_writeFBoxed_ne fmt hr v u)).trans
      (readF_congr r hf hcfg)

/-! ### Loads -/

/-- The value an integer load delivers. -/
def extended {n : Nat} (e : LoadExt) (v : BitVec n) : Word :=
  match e with
  | .signed => v.signExtend 64
  | .unsigned => v.setWidth 64

theorem writtenX_extendLoad (c : Xlen) (rd : RegNum) (e : LoadExt) (n v : Nat) :
    writtenX c rd (extendLoad c e n v) = writtenX c rd (extended e (BitVec.ofNat (8 * n) v)) := by
  apply writtenX_congr
  cases e <;> exact truncX_truncX _ _

theorem loadX_spec (len : Nat) {n : Nat} (hn : 0 < n) (e : LoadExt) (rd rs1 : RegNum) (off : Word) (s : State) :
    (accessGranted s.cfg .load (effAddr rs1 off s) n →
      ∃ t, ∃ v : BitVec (8 * n), loadX len n e rd rs1 off s = .next t ∧ LoadAccess s t (effAddr rs1 off s) n v ∧
        Retired len s t ∧ readX rd t = writtenX s.cfg.xlen rd (extended e v) ∧
        KeptXBut rd s t ∧ KeptF s t ∧ KeptStatus s t) ∧
    (∀ x, accessCheck s.cfg .load (effAddr rs1 off s) n = some x →
      loadX len n e rd rs1 off s = .next (trapped x (effAddr rs1 off s) s)) := by
  rw [← accessCheck_eq_none hn]
  obtain ⟨x, hx, h⟩ | ⟨hnone, h⟩ := loadX_cases len n e rd rs1 off s
  · exact ⟨fun hnone => absurd (hnone.symm.trans hx) nofun, fun y hy => by cases hx.symm.trans hy; exact h⟩
  · refine ⟨fun _ => ?_, fun y hy => absurd (hnone.symm.trans hy) nofun⟩
    obtain ⟨t, ht, hmem, hret, hrd, hx, hf, hst⟩ := retire_writeX_memory_spec len rd
      (extendLoad s.cfg.xlen e n (readAccess (effAddr rs1 off s) n s).1) (s := s)
      (u := (readAccess (effAddr rs1 off s) n s).2) (by simp) (by simp) (by simp) (by simp) (by simp) (by simp)
      ⟨by simp, by simp, by simp⟩ ⟨by simp, by simp, by simp⟩
    exact ⟨t, _, h.trans ht, (readAccess_spec _ n s (Nat.le_refl _)).congr hmem, hret,
      hrd.trans (writtenX_extendLoad ..), hx, hf, hst⟩

/-- Settles O11: the eleven are the shape `loadX`. -/
theorem integerLoadResult : Obligations.IntegerLoadResult := by
  intro s rd rs1 imm crd crs1 u5 u6 i len n e d base off h
  have hspec := fun len (hn : 0 < n) e d => loadX_spec len hn e d base off s
  simp only [List.mem_cons, List.not_mem_nil, or_false, Prod.mk.injEq, ← cOffW_eq, ← cOffD_eq, ← cOffWsp_eq,
    ← cOffDsp_eq] at h
  obtain ⟨rfl, rfl, rfl, rfl, rfl, rfl, rfl⟩ | ⟨rfl, rfl, rfl, rfl, rfl, rfl, rfl⟩ |
    ⟨rfl, rfl, rfl, rfl, rfl, rfl, rfl⟩ | ⟨rfl, rfl, rfl, rfl, rfl, rfl, rfl⟩ | ⟨rfl, rfl, rfl, rfl, rfl, rfl, rfl⟩ |
    ⟨rfl, rfl, rfl, rfl, rfl, rfl, rfl⟩ | ⟨rfl, rfl, rfl, rfl, rfl, rfl, rfl⟩ | ⟨rfl, rfl, rfl, rfl, rfl, rfl, rfl⟩ |
    ⟨rfl, rfl, rfl, rfl, rfl, rfl, rfl⟩ | ⟨rfl, rfl, rfl, rfl, rfl, rfl, rfl⟩ | ⟨rfl, rfl, rfl, rfl, rfl, rfl, rfl⟩ := h
  all_goals exact hspec _ (by decide) _ _

theorem fmt_bytes (fmt : Fmt) : 0 < fmt.width / 8 ∧ 8 * (fmt.width / 8) ≤ fmt.width ∧ fmt.width / 8 ≤ 16 := by
  cases fmt <;> decide

theorem loadF_spec (len : Nat) (fmt : Fmt) (rd rs1 : RegNum) (off : Word) (s : State) (hw : fmt.width ≤ flen s.cfg) :
    (accessGranted s.cfg .load (effAddr rs1 off s) (fmt.width / 8) →
      ∃ t, ∃ v : FpBits fmt, loadF len fmt rd rs1 off s = .next t ∧
        LoadAccess s t (effAddr rs1 off s) (fmt.width / 8) v ∧ Retired len s t ∧
        readF rd t = box (flen s.cfg) fmt v ∧ (∀ r, r ≠ rd → readF r t = readF r s) ∧ KeptX s t ∧ KeptStatus s t) ∧
    (∀ x, accessCheck s.cfg .load (effAddr rs1 off s) (fmt.width / 8) = some x →
      loadF len fmt rd rs1 off s = .next (trapped x (effAddr rs1 off s) s)) := by
  obtain ⟨hpos, hbits, -⟩ := fmt_bytes fmt
  rw [← accessCheck_eq_none hpos]
  obtain ⟨x, hx, h⟩ | ⟨hnone, h⟩ := loadF_cases len fmt rd rs1 off s
  · exact ⟨fun hnone => absurd (hnone.symm.trans hx) nofun, fun y hy => by cases hx.symm.trans hy; exact h⟩
  · refine ⟨fun _ => ?_, fun y hy => absurd (hnone.symm.trans hy) nofun⟩
    obtain ⟨t, ht, hmem, hrest⟩ := retire_writeFBoxed_memory_spec len (fmt := fmt) rd
      (BitVec.ofNat _ (readAccess (effAddr rs1 off s) (fmt.width / 8) s).1) (s := s)
      (u := (readAccess (effAddr rs1 off s) (fmt.width / 8) s).2) hw (by simp) (by simp) (by simp) (by simp) (by simp)
      (by simp) ⟨by simp, by simp, by simp⟩ ⟨by simp, by simp, by simp⟩
    exact ⟨t, _, h.trans ht, (readAccess_spec _ _ s hbits).congr hmem, hrest⟩

/-- Settles O13: the eight are the shape `loadF`. -/
theorem floatLoadResult : Obligations.FloatLoadResult := by
  intro s rd rs1 imm crd crs1 u5 u6 i len fmt d base off hw h
  have hspec := fun len d => loadF_spec len fmt d base off s hw
  simp only [List.mem_cons, List.not_mem_nil, or_false, Prod.mk.injEq, ← cOffW_eq, ← cOffD_eq, ← cOffWsp_eq,
    ← cOffDsp_eq] at h
  obtain ⟨rfl, rfl, rfl, rfl, rfl, rfl⟩ | ⟨rfl, rfl, rfl, rfl, rfl, rfl⟩ | ⟨rfl, rfl, rfl, rfl, rfl, rfl⟩ |
    ⟨rfl, rfl, rfl, rfl, rfl, rfl⟩ | ⟨rfl, rfl, rfl, rfl, rfl, rfl⟩ | ⟨rfl, rfl, rfl, rfl, rfl, rfl⟩ |
    ⟨rfl, rfl, rfl, rfl, rfl, rfl⟩ | ⟨rfl, rfl, rfl, rfl, rfl, rfl⟩ := h
  all_goals exact hspec _ _

/-! ### Stores -/

/-- A store of a value at an address, that retires. -/
theorem retire_writeAccess_spec {w : Nat} (len : Nat) (a : Word) (n : Nat) (v : BitVec w) (s : State)
    (hn : n ≤ 2 ^ s.cfg.xlen.bits) :
    ∃ t, retire len (writeAccess 0 a n v.toNat s) = .next t ∧ Retired len s t ∧ StoreAccess s t a n v ∧
      KeptX s t ∧ KeptF s t ∧ KeptStatus s t := by
  obtain ⟨t, ht, hmem, hret, hrest⟩ := retire_memory_spec len (s := s) (u := writeAccess 0 a n v.toNat s) (by simp)
    (by simp) (by simp) (by simp) (by simp) (by simp) ⟨by simp, by simp, by simp⟩ ⟨by simp, by simp, by simp⟩
  exact ⟨t, ht, hret, (writeAccess_spec a n v s hn).congr hmem, hrest⟩

theorem two_pow_xlen_ge (c : Xlen) {n : Nat} (hn : n ≤ 16) : n ≤ 2 ^ c.bits := hn.trans (by cases c <;> decide)

theorem storeX_spec (len : Nat) {n : Nat} (hn : 0 < n) (hn' : n ≤ 16) (rs2 rs1 : RegNum) (off : Word) (s : State) :
    (accessGranted s.cfg .store (effAddr rs1 off s) n →
      ∃ t, storeX len n rs2 rs1 off s = .next t ∧ Retired len s t ∧
        StoreAccess s t (effAddr rs1 off s) n (readX rs2 s) ∧ KeptX s t ∧ KeptF s t ∧ KeptStatus s t) ∧
    (∀ x, accessCheck s.cfg .store (effAddr rs1 off s) n = some x →
      storeX len n rs2 rs1 off s = .next (trapped x (effAddr rs1 off s) s)) := by
  rw [← accessCheck_eq_none hn]
  obtain ⟨x, hx, h⟩ | ⟨hnone, h⟩ := storeX_cases len n rs2 rs1 off s
  · exact ⟨fun hnone => absurd (hnone.symm.trans hx) nofun, fun y hy => by cases hx.symm.trans hy; exact h⟩
  · exact ⟨fun _ => h ▸ retire_writeAccess_spec len _ n (readX rs2 s) s (two_pow_xlen_ge _ hn'),
      fun y hy => absurd (hnone.symm.trans hy) nofun⟩

/-- Settles O12: the eight are the shape `storeX`. -/
theorem integerStoreResult : Obligations.IntegerStoreResult := by
  intro s rs2 rs1 imm crs2 crs1 u5 u6 i len n src base off h
  have hspec := fun len (hn : 0 < n) (hn' : n ≤ 16) => storeX_spec len hn hn' src base off s
  simp only [List.mem_cons, List.not_mem_nil, or_false, Prod.mk.injEq, ← cOffW_eq, ← cOffD_eq, ← cOffWsp_eq,
    ← cOffDsp_eq] at h
  obtain ⟨rfl, rfl, rfl, rfl, rfl, rfl⟩ | ⟨rfl, rfl, rfl, rfl, rfl, rfl⟩ | ⟨rfl, rfl, rfl, rfl, rfl, rfl⟩ |
    ⟨rfl, rfl, rfl, rfl, rfl, rfl⟩ | ⟨rfl, rfl, rfl, rfl, rfl, rfl⟩ | ⟨rfl, rfl, rfl, rfl, rfl, rfl⟩ |
    ⟨rfl, rfl, rfl, rfl, rfl, rfl⟩ | ⟨rfl, rfl, rfl, rfl, rfl, rfl⟩ := h
  all_goals exact hspec _ (by decide) (by decide)

/-- A store of `n` bytes reads the low `8n` bits of its value alone. -/
theorem storeCells_setWidth {w m : Nat} (c : Cfg) (a : Word) {n : Nat} (v : BitVec w) (hm : 8 * n ≤ m) :
    storeCells c a n (v.setWidth m).toNat = storeCells c a n v.toNat := by
  rw [storeCells_eq, storeCells_eq]
  refine List.map_congr_left fun k hk => ?_
  have hd : digitIndex c n k < n := by
    rw [List.mem_range] at hk
    unfold digitIndex
    split <;> omega
  congr 1
  ext j hj
  simp only [BitVec.getElem_extractLsb', BitVec.getLsbD_setWidth]
  simp [show 8 * digitIndex c n k + j < m by omega]

theorem writeAccess_setWidth {w m : Nat} (first : Nat) (a : Word) {n : Nat} (v : BitVec w) (s : State) (hm : 8 * n ≤ m) :
    writeAccess first a n (v.setWidth m).toNat s = writeAccess first a n v.toNat s := by
  rw [writeAccess, writeAccess, memWrite, memWrite, storeCells_setWidth _ _ _ hm]

theorem storeF_spec (len : Nat) (fmt : Fmt) (rs2 rs1 : RegNum) (off : Word) (s : State) :
    (accessGranted s.cfg .store (effAddr rs1 off s) (fmt.width / 8) →
      ∃ t, storeF len fmt rs2 rs1 off s = .next t ∧ Retired len s t ∧
        StoreAccess s t (effAddr rs1 off s) (fmt.width / 8) (readF rs2 s) ∧ KeptX s t ∧ KeptF s t ∧ KeptStatus s t) ∧
    (∀ x, accessCheck s.cfg .store (effAddr rs1 off s) (fmt.width / 8) = some x →
      storeF len fmt rs2 rs1 off s = .next (trapped x (effAddr rs1 off s) s)) := by
  obtain ⟨hpos, hbits, hle⟩ := fmt_bytes fmt
  rw [← accessCheck_eq_none hpos]
  obtain ⟨x, hx, h⟩ | ⟨hnone, h⟩ := storeF_cases len fmt rs2 rs1 off s
  · exact ⟨fun hnone => absurd (hnone.symm.trans hx) nofun, fun y hy => by cases hx.symm.trans hy; exact h⟩
  · rw [h, readFRaw, writeAccess_setWidth _ _ _ _ hbits]
    exact ⟨fun _ => retire_writeAccess_spec len _ _ (readF rs2 s) s (two_pow_xlen_ge _ hle),
      fun y hy => absurd (hnone.symm.trans hy) nofun⟩

/-- Settles O14: the eight are the shape `storeF`. -/
theorem floatStoreResult : Obligations.FloatStoreResult := by
  intro s rs2 rs1 imm crs2 crs1 u5 u6 i len n src base off h
  have hspec := fun len fmt => storeF_spec len fmt src base off s
  simp only [List.mem_cons, List.not_mem_nil, or_false, Prod.mk.injEq, ← cOffW_eq, ← cOffD_eq, ← cOffWsp_eq,
    ← cOffDsp_eq] at h
  obtain ⟨rfl, rfl, rfl, rfl, rfl, rfl⟩ | ⟨rfl, rfl, rfl, rfl, rfl, rfl⟩ | ⟨rfl, rfl, rfl, rfl, rfl, rfl⟩ |
    ⟨rfl, rfl, rfl, rfl, rfl, rfl⟩ | ⟨rfl, rfl, rfl, rfl, rfl, rfl⟩ | ⟨rfl, rfl, rfl, rfl, rfl, rfl⟩ |
    ⟨rfl, rfl, rfl, rfl, rfl, rfl⟩ | ⟨rfl, rfl, rfl, rfl, rfl, rfl⟩ := h
  · exact hspec 4 .h
  · exact hspec 4 .s
  · exact hspec 4 .d
  · exact hspec 4 .q
  · exact hspec 2 .s
  · exact hspec 2 .d
  · exact hspec 2 .s
  · exact hspec 2 .d

/-! ### The exceptions of an access -/

theorem bytesPermitted_eq_true {c : Cfg} {k : Access} {a : Word} {n : Nat} :
    bytesPermitted c k a n = true ↔ ∀ j, j < n → (regionAt c (byteAddr c a j)).any (regionPermits k) = true := by
  simp only [bytesPermitted, byteAddrs, List.all_eq_true, List.mem_map, List.mem_range, forall_exists_index, and_imp,
    forall_apply_eq_imp_iff₂]
  refine forall₂_congr fun j _ => ?_
  cases regionAt c (byteAddr c a j) <;> simp

theorem accessFaultOf_ne_misalignedOf (k : Access) : accessFaultOf k ≠ misalignedOf k := by
  cases k <;> simp [accessFaultOf, misalignedOf]

/-- Settles O15: along the branches of the access check. -/
theorem accessExceptions : Obligations.AccessExceptions := by
  intro c k a n hn
  refine ⟨fun hvacant => ?_, fun r hr hmis hp => ?_, fun r hr hmis hp => ?_, fun r hr hor hforbid => ?_, fun hal => ?_,
    (accessCheck_eq_none hn).symm⟩
  · simp [accessCheck, hvacant]
  · simp [accessCheck, hr, hmis, hp]
  · simp [accessCheck, hr, hmis, hp]
  · have hb : bytesPermitted c k a n = false := by
      rw [← Bool.not_eq_true, bytesPermitted_eq_true]
      obtain ⟨j, hj, hforbid⟩ := hforbid
      exact fun h => absurd ((h j hj).symm.trans hforbid) nofun
    by_cases hal : (truncX c.xlen a).toNat % n = 0
    · simp [accessCheck, hr, hal, hb]
    · simp [accessCheck, hr, hal, hb, hor.resolve_left hal]
  · have hne := accessFaultOf_ne_misalignedOf k
    unfold accessCheck
    dsimp only
    split
    · simpa using hne
    · rw [if_pos hal]
      split
      · exact nofun
      · simpa using hne

/-! ### A load after a store -/

/-- What was stored in main memory is what the bytes hold. -/
theorem Stored.holdsBytes {w n : Nat} {s t : State} {a : Word} {v : BitVec w} (h : Stored s t a n v)
    (hdev : NoDevice s.cfg a n) (hc : t.cfg = s.cfg) : HoldsBytes t a n (v.setWidth (8 * n)) := by
  intro k hk
  have hd : digitIndex s.cfg n k < n := by
    unfold digitIndex
    split <;> omega
  rw [hc, h.1 k hk (hdev k hk)]
  ext j hj
  simp only [BitVec.getElem_extractLsb', BitVec.getLsbD_setWidth]
  simp [show 8 * digitIndex s.cfg n k + j < 8 * n by omega]

theorem StoreAccess.stored {w n : Nat} {s t : State} {a : Word} {v : BitVec w} (h : StoreAccess s t a n v)
    (hs : s.cfg.agentWrites = false ∨ Single s.cfg a n) : Stored s t a n v :=
  hs.elim (fun hs => (h.2.2 hs).1) fun hs => (h.1 hs).1

theorem LoadAccess.holdsBytes {w n : Nat} {s t : State} {a : Word} {v : BitVec w} (h : LoadAccess s t a n v)
    (hs : s.cfg.agentWrites = false ∨ Single s.cfg a n) : HoldsBytes s a n v :=
  hs.elim (fun hs => (h.2.2 hs).1) fun hs => (h.1 hs).1

theorem storeX_loadX {n : Nat} (hn : 0 < n) (hn' : n ≤ 16) (rs2 rs1 rd : RegNum) (off : Word) (s : State)
    (hstore : accessGranted s.cfg .store (effAddr rs1 off s) n)
    (hload : accessGranted s.cfg .load (effAddr rs1 off s) n) (hdev : NoDevice s.cfg (effAddr rs1 off s) n)
    (hturn : s.cfg.agentWrites = false ∨ Single s.cfg (effAddr rs1 off s) n) :
    ∃ t u, storeX 4 n rs2 rs1 off s = .next t ∧ loadX 4 n .signed rd rs1 off t = .next u ∧
      readX rd u = writtenX s.cfg.xlen rd (((readX rs2 s).setWidth (8 * n)).signExtend 64) := by
  obtain ⟨t, hst, -, hacc, hx, -, -, -, hcfg, -⟩ := (storeX_spec 4 hn hn' rs2 rs1 off s).1 hstore
  have haddr : effAddr rs1 off t = effAddr rs1 off s := by rw [effAddr, effAddr, hx rs1, hcfg]
  have hspec := (loadX_spec 4 hn .signed rd rs1 off t).1
  rw [haddr, hcfg] at hspec
  obtain ⟨u, v, hld, hread, -, hrd, -⟩ := hspec hload
  have hv : v = (readX rs2 s).setWidth (8 * n) :=
    holdsBytes_unique (hread.holdsBytes (hcfg.symm ▸ hturn)) ((hacc.stored hturn).holdsBytes hdev hcfg)
  exact ⟨t, u, hst, hld, hv ▸ hrd⟩

/-- Settles O16. -/
theorem storeThenLoad : Obligations.StoreThenLoad := by
  intro s rs2 rs1 rd imm st ld n h
  simp only [List.mem_cons, List.not_mem_nil, or_false, Prod.mk.injEq] at h
  obtain ⟨rfl, rfl, rfl⟩ | ⟨rfl, rfl, rfl⟩ | ⟨rfl, rfl, rfl⟩ | ⟨rfl, rfl, rfl⟩ := h
  all_goals exact storeX_loadX (by decide) (by decide) rs2 rs1 rd (imm12 imm) s

end Sys2Proof.Machine
end
section
/-! PROOFS. Atomic memory operations: LR, SC and the constrained loops they are promised to leave, AMOs. -/

namespace Sys2Proof.Machine

/-! ### Addresses and reservation sets -/

/-- An LR or SC is never permitted to be misaligned. -/
theorem aligned_of_granted {c : Cfg} {k : Access} {a : Word} {n : Nat} (hk : k = .lr ∨ k = .sc)
    (h : accessGranted c k a n) : (truncX c.xlen a).toNat % n = 0 := by
  refine h.2.resolve_right fun hany => ?_
  obtain ⟨r, -, hr⟩ := (Option.any_eq_true ..).1 hany
  obtain rfl | rfl := hk <;> cases hm : c.misalignedAtomic <;> simp [misalignedPolicy, hm] at hr

/-- The bytes of an aligned access follow its address: it does not go round the address space. -/
theorem byteAddr_of_aligned {c : Cfg} {a : Word} {n k : Nat} (hn : n ∣ 2 ^ c.xlen.bits)
    (ha : (truncX c.xlen a).toNat % n = 0) (hk : k < n) : byteAddr c a k = (truncX c.xlen a).toNat + k := by
  refine Nat.mod_eq_of_lt ?_
  obtain ⟨q, hq⟩ := hn
  obtain ⟨p, hp⟩ := Nat.dvd_of_mod_eq_zero ha
  have hlt := truncX_lt c.xlen a
  rw [hp, hq] at hlt ⊢
  have hle : n * (p + 1) ≤ n * q := Nat.mul_le_mul_left n (Nat.lt_of_mul_lt_mul_left hlt)
  rw [Nat.mul_add] at hle
  omega

@[simp] theorem truncX_effAddr (rs1 : RegNum) (off : Word) (s : State) :
    truncX s.cfg.xlen (effAddr rs1 off s) = effAddr rs1 off s := truncX_truncX _ _

theorem inReservation_reservationFor {c : Cfg} {a : Word} {n b : Nat} :
    inReservation (reservationFor c a n) b = true ↔
      (∃ g ∈ rsetOf c a n, g.base ≤ b ∧ b < g.base + g.size) ∨ (a.toNat ≤ b ∧ b < a.toNat + n) := by
  simp [inReservation, reservationFor, or_comm]

/-- The aligned granule of an address: the addresses with the same quotient. -/
theorem mem_granule {a b g : Nat} (hg : 0 < g) : (a - a % g ≤ b ∧ b < a - a % g + g) ↔ b / g = a / g := by
  have := Nat.div_add_mod' a g
  rw [Nat.div_eq_iff hg]
  omega

/-- The bytes of an aligned access are in the aligned granule of its address. -/
theorem div_granule_of_aligned {a b n g : Nat} (hn : n ∣ g) (ha : a % n = 0) (hle : a ≤ b) (hlt : b < a + n) :
    b / g = a / g := by
  obtain ⟨q, rfl⟩ := hn
  have : b / n = a / n := (Nat.div_eq_iff (by omega)).2 (by have := Nat.div_add_mod' a n; omega)
  rw [← Nat.div_div_eq_div_mul, ← Nat.div_div_eq_div_mul, this]

/-- `RSET(a, n)` that the configuration gives, and the bytes accessed. -/
theorem inReservation_of_found {c : Cfg} {a : Word} {n b : Nat} {e : RsetEntry}
    (h : c.rset.find? (fun e => e.addr == a.toNat && e.len == n) = some e) :
    inReservation (reservationFor c a n) b = true ↔
      (∃ g ∈ e.set, g.base ≤ b ∧ b < g.base + g.size) ∨ (a.toNat ≤ b ∧ b < a.toNat + n) := by
  rw [inReservation_reservationFor, rsetOf, h]

/-- The default `RSET(a, n)`: the aligned granule. -/
theorem inReservation_of_not_found {c : Cfg} {a : Word} {n b : Nat}
    (h : c.rset.find? (fun e => e.addr == a.toNat && e.len == n) = none) (hn : n ∣ 8) (ha : a.toNat % n = 0) :
    inReservation (reservationFor c a n) b = true ↔
      b / 2 ^ (3 + c.granuleLog) = a.toNat / 2 ^ (3 + c.granuleLog) := by
  have hg : n ∣ 2 ^ (3 + c.granuleLog) := hn.trans ⟨2 ^ c.granuleLog, Nat.pow_add 2 3 _⟩
  rw [inReservation_reservationFor, rsetOf, h]
  simp only [List.mem_singleton, exists_eq_left, mem_granule (Nat.two_pow_pos _), or_iff_left_iff_imp, and_imp]
  exact div_granule_of_aligned hg ha

/-! ### LR -/

theorem writeX_withReservation (rd : RegNum) (v : Word) (r : Option Reservation) (s : State) :
    ({ writeX rd v s with reservation := r } : State) = writeX rd v { s with reservation := r } := by
  unfold writeX
  split <;> rfl

theorem writeX_withReservation_watch (rd : RegNum) (v : Word) (r : Option Reservation) (w : Option LoopWatch) (s : State) :
    ({ writeX rd v s with reservation := r, watch := w } : State) = writeX rd v { s with reservation := r, watch := w } := by
  unfold writeX
  split <;> rfl

theorem loadReserved_spec {n : Nat} (hn : 0 < n) (rd rs1 : RegNum) (s : State)
    (h : accessGranted s.cfg .lr (effAddr rs1 0 s) n) :
      ∃ t, ∃ v : BitVec (8 * n), loadReserved n rd rs1 s = .next t ∧ HoldsBytes s (effAddr rs1 0 s) n v ∧ Retired 4 s t ∧
        readX rd t = writtenX s.cfg.xlen rd (v.signExtend 64) ∧
        t.reservation = some (reservationFor s.cfg (effAddr rs1 0 s) n) ∧
        KeptXBut rd s t ∧ KeptF s t ∧ KeptStatus s t ∧ OnlyRead s t (effAddr rs1 0 s) n ∧ t.watch = s.watch := by
  obtain ⟨x, hx, -⟩ | ⟨-, heq⟩ := loadReserved_cases n rd rs1 s
  · exact absurd (((accessCheck_eq_none hn).2 h).symm.trans hx) nofun
  rw [writeX_withReservation] at heq
  generalize effAddr rs1 0 s = a at heq ⊢
  have hread : OnlyRead s { noteRead a n s with reservation := some (reservationFor s.cfg a n) } a n :=
    noteRead_onlyRead a n s
  obtain ⟨t, ht, hmem, hret, hrd, hx, hf, hst⟩ := retire_writeX_memory_spec 4 rd
    (extendLoad s.cfg.xlen .signed n (memRead a n s)) (s := s)
    (u := { noteRead a n s with reservation := some (reservationFor s.cfg a n) })
    (by simp) (by simp) (by simp) (by simp) (by simp) (by simp) ⟨by simp, by simp, by simp⟩ ⟨by simp, by simp, by simp⟩
  exact ⟨t, BitVec.ofNat _ (memRead a n s), heq.trans ht, memRead_holds a n s (Nat.le_refl _), hret,
    hrd.trans (writtenX_extendLoad ..), hmem.same.2.2.2.1, hx, hf, hst, hread.congr hmem,
    hmem.same.2.2.2.2.trans (by simp)⟩

/-- LR traps exactly by the access check. -/
theorem loadReserved_trap {n : Nat} {rd rs1 : RegNum} {s : State} {x : Exn}
    (hx : accessCheck s.cfg .lr (effAddr rs1 0 s) n = some x) :
    loadReserved n rd rs1 s = .next (trapped x (effAddr rs1 0 s) s) := by
  obtain ⟨y, hy, h⟩ | ⟨hnone, -⟩ := loadReserved_cases n rd rs1 s
  · cases hx.symm.trans hy
    exact h
  · exact absurd (hnone.symm.trans hx) nofun

/-- Settles O17: both are the shape `loadReserved`; the set is `reservationFor`. -/
theorem loadReservedResult : Obligations.LoadReservedResult := by
  intro s rd rs1 aq rl i n h
  have hn : n ∣ 8 ∧ 0 < n ∧ exec i s = loadReserved n rd rs1 s := by
    simp only [List.mem_cons, List.not_mem_nil, or_false, Prod.mk.injEq] at h
    obtain ⟨rfl, rfl⟩ | ⟨rfl, rfl⟩ := h
    · exact ⟨by decide, by decide, rfl⟩
    · exact ⟨by decide, by decide, rfl⟩
  obtain ⟨hdvd, hpos, hexec⟩ := hn
  rw [hexec]
  refine ⟨fun hgrant => ?_, fun x hx => loadReserved_trap hx⟩
  obtain ⟨t, v, ht, hv, hret, hrd, hres, hx, hf, hst, hread, hwatch⟩ := loadReserved_spec hpos rd rs1 s hgrant
  have hal := aligned_of_granted (.inl rfl) hgrant
  have hdvd' : n ∣ 2 ^ s.cfg.xlen.bits := hdvd.trans (by cases s.cfg.xlen <;> decide)
  have hbyte := fun k => byteAddr_of_aligned (k := k) hdvd' hal
  rw [truncX_effAddr] at hal hbyte
  refine ⟨t, v, _, ht, hv, hret, hrd, hres, rfl, rfl, fun k hk => ?_, fun e he b => inReservation_of_found he,
    fun hnone b => inReservation_of_not_found hnone hdvd hal, hx, hf, hst, hread, hwatch⟩
  rw [hbyte k hk]
  exact covers_reservationFor s.cfg _ n _ (Nat.le_add_right ..) (Nat.add_lt_add_left hk _)

/-! ### SC -/

/-- SC that is granted: the success and the failure. -/
theorem storeConditional_spec {n : Nat} (hn : 0 < n) (hn' : n ≤ 16) (rd rs1 rs2 : RegNum) (s : State)
    (h : accessGranted s.cfg .sc (effAddr rs1 0 s) n) :
    ∃ t, storeConditional n rd rs1 rs2 s = .next t ∧ Retired 4 s t ∧ t.reservation = none ∧ KeptXBut rd s t ∧
      KeptF s t ∧ KeptStatus s t ∧
      (scSuccess (effAddr rs1 0 s) n s = true →
        readX rd t = 0 ∧ Stored s t (effAddr rs1 0 s) n (readX rs2 s) ∧
          t.io = deviceWrites s.cfg (effAddr rs1 0 s) n (readX rs2 s) ++ s.io ∧ t.watch = none) ∧
      (scSuccess (effAddr rs1 0 s) n s = false →
        readX rd t = writtenX s.cfg.xlen rd 1 ∧ KeptMemory s t ∧
          t.watch = watchAfterFailure (effAddr rs1 0 s) n s) := by
  obtain ⟨x, hx, -⟩ | ⟨-, hsuc, heq⟩ | ⟨-, hsuc, heq⟩ := storeConditional_cases n rd rs1 rs2 s
  · exact absurd (((accessCheck_eq_none hn).2 h).symm.trans hx) nofun
  · rw [writeX_withReservation_watch] at heq
    generalize effAddr rs1 0 s = a at heq hsuc ⊢
    have hstored : Stored s { memWrite a n (readX rs2 s).toNat s with reservation := none, watch := none } a n
        (readX rs2 s) := memWrite_stored a n (readX rs2 s) s (two_pow_xlen_ge _ hn')
    obtain ⟨t, ht, hmem, hret, hrd, hx, hf, hst⟩ := retire_writeX_memory_spec 4 rd 0 (s := s)
      (u := { memWrite a n (readX rs2 s).toNat s with reservation := none, watch := none }) (by simp) (by simp) (by simp)
      (by simp) (by simp) (by simp) ⟨by simp, by simp, by simp⟩ ⟨by simp, by simp, by simp⟩
    exact ⟨t, heq.trans ht, hret, hmem.same.2.2.2.1, hx, hf, hst,
      fun _ => ⟨hrd.trans (by simp [writtenX]), hstored.congr hmem,
        hmem.same.2.2.1.trans (memWrite_io a n (readX rs2 s) s), hmem.same.2.2.2.2⟩,
      fun hfail => absurd (hsuc.symm.trans hfail) nofun⟩
  · rw [writeX_withReservation_watch] at heq
    generalize effAddr rs1 0 s = a at heq hsuc ⊢
    obtain ⟨t, ht, hmem, hret, hrd, hx, hf, hst⟩ := retire_writeX_memory_spec 4 rd Config.scFailCode (s := s)
      (u := { s with reservation := none, watch := watchAfterFailure a n s }) rfl rfl rfl rfl rfl rfl ⟨rfl, rfl, rfl⟩
      ⟨rfl, rfl, rfl⟩
    exact ⟨t, heq.trans ht, hret, hmem.same.2.2.2.1, hx, hf, hst, fun h => absurd (hsuc.symm.trans h) nofun,
      fun _ => ⟨hrd, ⟨hmem.readByte_eq, hmem.same.2.1, hmem.same.2.2.1⟩, hmem.same.2.2.2.2⟩⟩

/-- SC traps exactly by the access check. -/
theorem storeConditional_trap {n : Nat} {rd rs1 rs2 : RegNum} {s : State} {x : Exn}
    (hx : accessCheck s.cfg .sc (effAddr rs1 0 s) n = some x) :
    storeConditional n rd rs1 rs2 s = .next (trapped x (effAddr rs1 0 s) s) := by
  obtain ⟨y, hy, h⟩ | ⟨hnone, -⟩ | ⟨hnone, -⟩ := storeConditional_cases n rd rs1 rs2 s
  · cases hx.symm.trans hy
    exact h
  all_goals exact absurd (hnone.symm.trans hx) nofun

/-- The two SC instructions are the shape `storeConditional`. -/
theorem exec_storeConditional {s : State} {rd rs1 rs2 : RegNum} {aq rl : BitVec 1} {i : Instr} {n : Nat}
    (h : (i, n) ∈ ([(.scW rd rs1 rs2 aq rl, 4), (.scD rd rs1 rs2 aq rl, 8)] : List (Instr × Nat))) :
    0 < n ∧ n ≤ 16 ∧ exec i s = storeConditional n rd rs1 rs2 s := by
  simp only [List.mem_cons, List.not_mem_nil, or_false, Prod.mk.injEq] at h
  obtain ⟨rfl, rfl⟩ | ⟨rfl, rfl⟩ := h
  · exact ⟨by decide, by decide, rfl⟩
  · exact ⟨by decide, by decide, rfl⟩

/-- Settles O18: the success of `storeConditional_spec` is what `scSuccess_eq_true` says. -/
theorem storeConditionalResult : Obligations.StoreConditionalResult := by
  intro s rd rs1 rs2 aq rl i n h
  obtain ⟨hpos, hle, hexec⟩ := exec_storeConditional (s := s) h
  rw [hexec]
  refine ⟨fun hgrant => ?_, fun x hx => storeConditional_trap hx⟩
  obtain ⟨t, ht, hret, hres, hx, hf, hst, hsuc, hfail⟩ := storeConditional_spec hpos hle rd rs1 rs2 s hgrant
  refine ⟨t, ht, hret, hres, hx, hf, hst, fun hr ho => hsuc (scSuccess_eq_true.2 ⟨hr, ho⟩), fun hn => ?_⟩
  obtain ⟨hrd, hmem, -⟩ := hfail (by rwa [← Bool.not_eq_true, scSuccess_eq_true])
  exact ⟨hrd, hmem⟩

/-! ### Constrained LR/SC loops -/

theorem scConstrained_eq_true {a : Word} {n : Nat} {s : State} {w : LoopWatch} (hretry : w.retrying = false)
    (haddr : w.lrAddr = a.toNat) (hlen : w.lrLen = n) (hdev : NoDevice s.cfg a n)
    (hfits : ∃ first ∈ w.code, ∀ i ∈ w.code, i.1 ∈ placed s w.code 16 first.1) : scConstrained a n s w = true := by
  have hmem : ∀ b ∈ byteAddrs s.cfg a n, isIo s.cfg b = false := by
    intro b hb
    obtain ⟨k, hk, rfl⟩ := mem_byteAddrs.1 hb
    exact hdev k hk
  simpa [scConstrained, hretry, haddr, hlen, loopFits_eq_true.2 hfits] using hmem

/-- An SC that ends a sequence of a constrained loop and may fail: the loop's patience is not at its end. -/
theorem watchAfterFailure_of_constrained {a : Word} {n : Nat} {s : State} {w : LoopWatch} (hw : s.watch = some w)
    (hcon : scConstrained a n s w = true) (howed : scOwed a n s = false) :
    w.failures ≤ Config.scPatience w.since ∧
      watchAfterFailure a n s = some { w with retrying := true, failures := w.failures + 1 } := by
  have hle : w.failures ≤ Config.scPatience w.since := by simpa [scOwed, hw, hcon] using howed
  exact ⟨hle, by simp [watchAfterFailure, hw, hcon, hle]⟩

theorem curPc_lt (s : State) : (curPc s).toNat < 2 ^ s.cfg.xlen.bits := truncX_lt _ _

/-- An instruction that may stand in a constrained loop keeps it: after the LR a forward one, after a failure any. -/
theorem observe_body {s : State} {w : LoopWatch} {i : Instr} {len : Nat} (hi : loopRole i = .body len)
    (hw : s.watch = some w) (hahead : w.retrying = true ∨
      ∃ d, 0 < d ∧ d < 2 ^ (s.cfg.xlen.bits - 1) ∧ (curPc s).toNat = (w.last + d) % 2 ^ s.cfg.xlen.bits) :
    (observe i s).watch = some (watchRun (curPc s).toNat len w) := by
  have : (w.retrying || isAhead s.cfg w.last (curPc s).toNat) = true := by
    rw [Bool.or_eq_true, isAhead_eq_true (curPc_lt s)]
    exact hahead
  simp [observe, hi, hw, watchStep, this]

/-- The LR that the code to retry has led back to begins the next sequence of the same loop. -/
theorem observe_reserve {s : State} {w : LoopWatch} {i : Instr} {rs1 : RegNum} {n : Nat}
    (hi : loopRole i = .reserve rs1 n) (hw : s.watch = some w) (hretry : w.retrying = true)
    (hpc : w.lrPc = (curPc s).toNat) :
    (observe i s).watch = some { watchRun (curPc s).toNat 4 w with
      lrAddr := (effAddr rs1 0 s).toNat, lrLen := n, retrying := false } := by
  have hf : s.watch.filter (fun w => w.retrying && w.lrPc == (curPc s).toNat) = some w := by
    simp [hw, Option.filter, hretry, hpc]
  simp [observe, hi, watchReserve, hf]

theorem exec_loopKept {i : Instr} {s t : State} (h : exec i s = .next t) : LoopKept s t := by
  have hends := exec_ends i s
  rw [h] at hends
  generalize hres : Host.Outcome.next t = res at hends
  cases hends with
  | trap e info => cases hres; exact .of_eq rfl
  | retired hlen hu => cases hres; exact fun w hw => hu.loopKept w hw
  | jumped target rd v => cases hres; exact .of_eq (by simp)

/-- The count of a loop that a step leaves under its entry is not below what it was. -/
theorem failures_le_of_step {s t : State} {v w : LoopWatch} (hinv : s.Inv) (h : step s = .next t)
    (hv : s.watch = some v) (hw : t.watch = some w) (hsince : w.since = v.since) : v.failures ≤ w.failures := by
  have hstart : ∀ u, (startStep s).watch = some u → u = v := fun u hu => by
    rcases startStep_watch s with hs | hs
    · exact Option.some.inj (hu.symm.trans (hs.trans hv))
    · exact absurd (hu.symm.trans hs) nofun
  obtain ⟨r, -, heq⟩ | ⟨-, -, heq⟩ | ⟨-, word, -, ⟨r, -, heq⟩ | ⟨i, -, heq⟩⟩ := step_cases s
  · obtain ⟨-, hr⟩ | ⟨-, -, hr⟩ | ⟨-, reply, -, hr⟩ := resolveTrap_cases r (startStep s)
    · exact absurd (h.symm.trans (heq.trans hr)) nofun
    · exact absurd (h.symm.trans (heq.trans hr)) nofun
    · cases h.symm.trans (heq.trans hr)
      exact absurd hw nofun
  · cases h.symm.trans heq
    exact hstart w hw ▸ Nat.le_refl _
  · cases h.symm.trans heq
    exact hstart w hw ▸ Nat.le_refl _
  · obtain ⟨u, hu, hus, hfail⟩ := exec_loopKept (heq.symm.trans h) w hw
    have hle : u.failures ≤ w.failures := by omega
    obtain ⟨hnew, -⟩ | ⟨v', hv', -, hsame⟩ := observe_watch hu
    · have hold := (hinv.loopBounded v hv).1
      rw [startStep_draw] at hnew
      omega
    · rwa [← hstart v' hv', ← hsame]

/-- Settles O19: an SC that fails counts it, `observe` keeps the loop, and the count stays within the invariant's bound. -/
theorem constrainedLoopSucceeds : Obligations.ConstrainedLoopSucceeds := by
  refine ⟨fun s rd rs1 rs2 aq rl i n w h hgrant hr hw hretry haddr hlen hdev hfits => ?_,
    fun s w i len rd rs1 rs2 crd crs u20 imm sh6 sh5 u8 off h hw hahead => ?_,
    fun s w rd rs1 aq rl i n h hw hretry hpc => ?_, fun s t v w hinv h hv hw hsince => ⟨?_, ?_⟩⟩
  · obtain ⟨hpos, hle, hexec⟩ := exec_storeConditional (s := s) h
    obtain ⟨t, ht, -, -, -, -, -, hsuc, hfail⟩ := storeConditional_spec hpos hle rd rs1 rs2 s hgrant
    refine ⟨t, hexec.trans ht, ?_⟩
    cases hs : scSuccess (effAddr rs1 0 s) n s with
    | true =>
      obtain ⟨hrd, hstored, -, hwatch⟩ := hsuc hs
      exact .inl ⟨hrd, hstored, hwatch⟩
    | false =>
      have howed : scOwed (effAddr rs1 0 s) n s = false := by
        rw [← Bool.not_eq_true]
        exact fun howed => absurd (hs.symm.trans (scSuccess_eq_true.2 ⟨hr, .inr howed⟩)) nofun
      obtain ⟨hpatience, hafter⟩ :=
        watchAfterFailure_of_constrained hw (scConstrained_eq_true hretry haddr hlen hdev hfits) howed
      exact .inr ⟨hpatience, (hfail hs).2.2.trans hafter⟩
  · have hrole : loopRole i = .body len :=
      List.map_inj_left (f := fun p => loopRole p.1) (g := fun p => LoopRole.body p.2) |>.1 rfl _ h
    exact observe_body hrole hw hahead
  · have hrole : loopRole i = .reserve rs1 n := by
      simp only [List.mem_cons, List.not_mem_nil, or_false, Prod.mk.injEq] at h
      obtain ⟨rfl, rfl⟩ | ⟨rfl, rfl⟩ := h <;> rfl
    exact ⟨_, observe_reserve hrole hw hretry hpc, rfl, rfl, rfl, rfl, rfl⟩
  · exact failures_le_of_step hinv h hv hw hsince
  · rw [← hsince]
    exact ((stepKeepsInvariant s t hinv h).loopBounded w hw).2

/-! ### AMOs -/

theorem amoApply_min : (fun w => amoApply .min (w := w)) = (fun _ a b => if b.slt a then b else a : AluOp) := by
  funext w a b
  simp only [amoApply, BitVec.slt_eq_decide, decide_eq_true_eq, ← Int.not_le, ite_not]

theorem amoApply_max : (fun w => amoApply .max (w := w)) = (fun _ a b => if a.slt b then b else a : AluOp) := by
  funext w a b
  simp only [amoApply, BitVec.slt_eq_decide, decide_eq_true_eq]
  obtain h | h | h := lt_trichotomy a.toInt b.toInt
  · rw [if_pos h.le, if_pos h]
  · rw [BitVec.eq_of_toInt_eq h, ite_self, ite_self]
  · rw [if_neg h.not_ge, if_neg h.not_gt]

theorem amoApply_minu : (fun w => amoApply .minu (w := w)) = (fun _ a b => if b.ult a then b else a : AluOp) := by
  funext w a b
  simp only [amoApply, BitVec.ult, decide_eq_true_eq, ← Nat.not_le, ite_not]

theorem amoApply_maxu : (fun w => amoApply .maxu (w := w)) = (fun _ a b => if a.ult b then b else a : AluOp) := by
  funext w a b
  simp only [amoApply, BitVec.ult, decide_eq_true_eq]
  obtain h | h | h := lt_trichotomy a.toNat b.toNat
  · rw [if_pos h.le, if_pos h]
  · rw [BitVec.eq_of_toNat_eq h, ite_self, ite_self]
  · rw [if_neg h.not_ge, if_neg h.not_gt]

theorem amo_spec (k : AmoOp) {n : Nat} (hn : 0 < n) (hn' : n ≤ 16) (rd rs1 rs2 : RegNum) (s : State) :
    (accessGranted s.cfg (.amo k) (effAddr rs1 0 s) n →
      ∃ t, ∃ v : BitVec (8 * n), amo k n rd rs1 rs2 s = .next t ∧ Retired 4 s t ∧
        readX rd t = writtenX s.cfg.xlen rd (v.signExtend 64) ∧
        AmoAccess s t (effAddr rs1 0 s) n v (amoApply k v ((readX rs2 s).setWidth (8 * n))) ∧
        KeptXBut rd s t ∧ KeptF s t ∧ KeptStatus s t) ∧
    (∀ x, accessCheck s.cfg (.amo k) (effAddr rs1 0 s) n = some x →
      amo k n rd rs1 rs2 s = .next (trapped x (effAddr rs1 0 s) s)) := by
  rw [← accessCheck_eq_none hn]
  obtain ⟨x, hx, h⟩ | ⟨hnone, h⟩ := amo_cases k n rd rs1 rs2 s
  · exact ⟨fun hnone => absurd (hnone.symm.trans hx) nofun, fun y hy => by cases hx.symm.trans hy; exact h⟩
  · refine ⟨fun _ => ?_, fun y hy => absurd (hnone.symm.trans hy) nofun⟩
    generalize effAddr rs1 0 s = a at h ⊢
    have hacc := amoAccess_spec a (amoApply k (BitVec.ofNat (8 * n) (readAccess a n s).1)
      ((readX rs2 s).setWidth (8 * n))) s (two_pow_xlen_ge _ hn')
    obtain ⟨t, ht, hmem, hret, hrd, hx, hf, hst⟩ := retire_writeX_memory_spec 4 rd
      (extendLoad s.cfg.xlen .signed n (readAccess a n s).1) (s := s) (u := writeAccess n a n
        (amoApply k (BitVec.ofNat (8 * n) (readAccess a n s).1) ((readX rs2 s).setWidth (8 * n))).toNat
        (readAccess a n s).2) (by simp) (by simp) (by simp) (by simp) (by simp) (by simp)
      ⟨by simp, by simp, by simp⟩ ⟨by simp, by simp, by simp⟩
    exact ⟨t, _, h.trans ht, hret, hrd.trans (writtenX_extendLoad ..), hacc.congr hmem, hx, hf, hst⟩

/-- Settles O20: all are the shape `amo`; the operators of the table are `amoApply`. -/
theorem amoResult : Obligations.AmoResult := by
  intro s rd rs1 rs2 aq rl i n k op h
  have hspec := fun n (hn : 0 < n) (hn' : n ≤ 16) k => amo_spec k hn hn' rd rs1 rs2 s
  rw [← amoApply_min, ← amoApply_max, ← amoApply_minu, ← amoApply_maxu] at h
  simp only [List.mem_cons, List.not_mem_nil, or_false, Prod.mk.injEq] at h
  obtain ⟨rfl, rfl, rfl, rfl⟩ | ⟨rfl, rfl, rfl, rfl⟩ | ⟨rfl, rfl, rfl, rfl⟩ | ⟨rfl, rfl, rfl, rfl⟩ |
    ⟨rfl, rfl, rfl, rfl⟩ | ⟨rfl, rfl, rfl, rfl⟩ | ⟨rfl, rfl, rfl, rfl⟩ | ⟨rfl, rfl, rfl, rfl⟩ | ⟨rfl, rfl, rfl, rfl⟩ |
    ⟨rfl, rfl, rfl, rfl⟩ | ⟨rfl, rfl, rfl, rfl⟩ | ⟨rfl, rfl, rfl, rfl⟩ | ⟨rfl, rfl, rfl, rfl⟩ | ⟨rfl, rfl, rfl, rfl⟩ |
    ⟨rfl, rfl, rfl, rfl⟩ | ⟨rfl, rfl, rfl, rfl⟩ | ⟨rfl, rfl, rfl, rfl⟩ | ⟨rfl, rfl, rfl, rfl⟩ := h
  all_goals exact hspec _ (by decide) (by decide) _

end Sys2Proof.Machine
end
section
/-! PROOFS. The CSR instructions: one shape, six updates; the map of addresses; what a counter reads as. -/

namespace Sys2Proof.Machine

/-! ### The shape -/

/-- The state once a CSR instruction has written its CSR, if it does. -/
def csrUpdated (r : CsrName) (new : Option Word) (s : State) : State :=
  match new with
  | none => s
  | some v => csrWrite r v s

/-- What a CSR instruction writes, if it does. -/
def csrNew (r : CsrName) (update : Option (Word → Word)) (s : State) : Option Word := update.map (fun u => u (csrRead r s))

theorem csrAccess_eq {csr : BitVec 12} {r : CsrName} {update : Option (Word → Word)} {s : State}
    (hr : csrAt csr = some r) (hp : csrPermitted s.cfg r update.isSome = true) (rd : RegNum) (bits : InstrWord) :
    csrAccess csr rd update bits s = retire 4 (writeX rd (csrRead r s) (csrUpdated r (csrNew r update s) s)) := by
  obtain ⟨hnone | ⟨q, hq, hnot⟩, -⟩ | ⟨q, hq, -, heq⟩ := csrAccess_cases csr rd update bits s
  · exact absurd (hr.symm.trans hnone) nofun
  · cases hr.symm.trans hq
    exact absurd (hp.symm.trans hnot) nofun
  · cases hr.symm.trans hq
    rw [heq]
    cases update <;> rfl

theorem csrAccess_illegal {csr : BitVec 12} {update : Option (Word → Word)} {s : State}
    (h : ∀ r, csrAt csr = some r → csrPermitted s.cfg r update.isSome = false) (rd : RegNum) (bits : InstrWord) :
    csrAccess csr rd update bits s = illegal bits s := by
  obtain ⟨-, heq⟩ | ⟨r, hr, hp, -⟩ := csrAccess_cases csr rd update bits s
  · exact heq
  · exact absurd (hp.symm.trans (h r hr)) nofun

/-- A CSR instruction writes `frm` and `fflags` at most. -/
theorem csrUpdated_eq (r : CsrName) (new : Option Word) (s : State) :
    ∃ frm fl, csrUpdated r new s = { s with frm := frm, fflags := fl } := by
  cases new with
  | none => exact ⟨_, _, rfl⟩
  | some v => cases r <;> exact ⟨_, _, rfl⟩

/-- A CSR instruction that is permitted: the old value in `rd`, the floating-point CSRs as written, the rest kept. -/
theorem csrAccess_spec {csr : BitVec 12} {r : CsrName} {update : Option (Word → Word)} {s : State}
    (hr : csrAt csr = some r) (hp : csrPermitted s.cfg r update.isSome = true) (rd : RegNum) (bits : InstrWord) :
    ∃ t, csrAccess csr rd update bits s = .next t ∧ Retired 4 s t ∧ readX rd t = writtenX s.cfg.xlen rd (csrRead r s) ∧
      KeptFcsr (csrUpdated r (csrNew r update s) s) t ∧
      KeptXBut rd s t ∧ KeptF s t ∧ KeptCounters s t ∧ KeptMemory s t ∧ KeptControl s t ∧ KeptReservation s t := by
  obtain ⟨frm, fl, hu⟩ := csrUpdated_eq r (csrNew r update s) s
  rw [csrAccess_eq hr hp, hu]
  obtain ⟨t, ht, hret, hrd, hx, hf, hfcsr, hcount, hmem, hcontrol, hres⟩ :=
    retire_writeX_spec 4 rd (csrRead r s) { s with frm := frm, fflags := fl }
  exact ⟨t, ht, hret, hrd, hfcsr, hx, hf, hcount, hmem, hcontrol, hres⟩

/-! ### The six instructions -/

/-- The CSR instructions, each with its update. -/
def csrForms (rd rs1 : RegNum) (uimm : BitVec 5) (a : BitVec 12) (s : State) : List (Instr × Option (Word → Word)) := [
  (.csrrw rd a rs1, some (fun _ => readX rs1 s)),
  (.csrrs rd a rs1, if rs1 = 0 then none else some (csrSet (readX rs1 s))),
  (.csrrc rd a rs1, if rs1 = 0 then none else some (csrClear (readX rs1 s))),
  (.csrrwi rd a uimm, some (fun _ => uimm.setWidth 64)),
  (.csrrsi rd a uimm, if uimm = 0 then none else some (csrSet (uimm.setWidth 64))),
  (.csrrci rd a uimm, if uimm = 0 then none else some (csrClear (uimm.setWidth 64)))]

theorem exec_csr {rd rs1 : RegNum} {uimm : BitVec 5} {a : BitVec 12} {s : State} {i : Instr}
    {update : Option (Word → Word)} (h : (i, update) ∈ csrForms rd rs1 uimm a s) :
    exec i s = csrAccess a rd update (encode i) s :=
  List.map_inj_left (f := fun p => exec p.1 s) (g := fun p => csrAccess a rd p.2 (encode p.1) s) |>.1 rfl _ h

/-- Settles O22: `csrAccess_spec` for each of the six updates. -/
theorem csrResult : Obligations.CsrResult := by
  intro s rd rs1 uimm a r i new hr hp h
  obtain ⟨⟨j, update⟩, hmem, heq⟩ : ∃ p ∈ csrForms rd rs1 uimm a s, (p.1, csrNew r p.2 s) = (i, new) := by
    rw [← List.mem_map]
    simpa only [csrForms, csrNew, csrSet, csrClear, List.map_cons, List.map_nil, apply_ite (Option.map _), Option.map_none,
      Option.map_some] using h
  cases heq
  have hsome : (csrNew r update s).isSome = update.isSome := Option.isSome_map
  obtain ⟨t, ht, hret, hrd, ⟨hfrm, hfl⟩, hkept⟩ := csrAccess_spec hr (hsome ▸ hp) rd (encode j)
  refine ⟨t, (exec_csr hmem).trans ht, hret, hrd, ?_, hkept⟩
  generalize csrNew r update s = new at hfrm hfl ⊢
  cases new with
  | none => cases r <;> exact ⟨hfrm, hfl⟩
  | some v =>
    cases r with
    | fflags => exact ⟨hfl, hfrm⟩
    | frm | fcsr | counter | counterHigh => exact ⟨hfrm, hfl⟩

/-- Settles O23: `csrAccess_illegal` for each of the six updates. -/
theorem csrIllegal : Obligations.CsrIllegal := by
  refine ⟨fun s rd rs1 uimm a i write h hp => ?_, fun c n => ⟨rfl, rfl⟩⟩
  have hne : ∀ x : BitVec 5, (if x = 0 then false else true) = (x != 0) := fun x => by
    by_cases hx : x = 0
    · rw [hx]; rfl
    · rw [if_neg hx, bne_iff_ne.2 hx]
  obtain ⟨⟨j, update⟩, hmem, heq⟩ : ∃ p ∈ csrForms rd rs1 uimm a s, (p.1, p.2.isSome) = (i, write) := by
    rw [← List.mem_map]
    simpa only [csrForms, List.map_cons, List.map_nil, apply_ite Option.isSome, Option.isSome_none, Option.isSome_some,
      hne] using h
  cases heq
  rw [exec_csr hmem, csrAccess_illegal hp, illegal_eq]

/-! ### The map -/

theorem csrAt_counter (n : BitVec 5) :
    csrAt (0xC00#12 + n.setWidth 12) = some (.counter n) ∧ csrAt (0xC80#12 + n.setWidth 12) = some (.counterHigh n) := by
  revert n
  decide +kernel

/-- The addresses of a block of 32, by its number. -/
theorem eq_block_add {a base : BitVec 12} {b : BitVec 7} (h : a.extractLsb' 5 7 = b) (hb : b.setWidth 12 <<< 5 = base) :
    a = base + (a.extractLsb' 0 5).setWidth 12 := by
  subst h hb
  apply BitVec.eq_of_toNat_eq
  simp only [BitVec.toNat_add, BitVec.toNat_shiftLeft, BitVec.toNat_setWidth, BitVec.extractLsb'_toNat]
  omega

theorem csrAt_ne_none {a : BitVec 12} (h : csrAt a ≠ none) : a = 0x001 ∨ a = 0x002 ∨ a = 0x003 ∨
    ∃ n : BitVec 5, a = 0xC00#12 + n.setWidth 12 ∨ a = 0xC80#12 + n.setWidth 12 := by
  unfold csrAt at h
  split at h
  · exact .inl ‹_›
  split at h
  · exact .inr (.inl ‹_›)
  split at h
  · exact .inr (.inr (.inl ‹_›))
  split at h
  · exact .inr (.inr (.inr ⟨_, .inl (eq_block_add ‹_› rfl)⟩))
  split at h
  · exact .inr (.inr (.inr ⟨_, .inr (eq_block_add ‹_› rfl)⟩))
  · exact absurd rfl h

/-! ### The counters -/

theorem counterReadable_lo {c : Cfg} {n : BitVec 5} (h : n.toNat < 3) :
    counterReadable c n = (c.counterAccess && c.ext.zicntr) := by
  cases hz : c.ext.zicntr <;> simp [counterReadable, counterKind, h, hz]

theorem counterReadable_hi {c : Cfg} {n : BitVec 5} (k : Fin 29) (h : n.toNat = k.val + 3) :
    counterReadable c n = (c.counterAccess && c.ext.zihpm && decide (c.hpm[k] ≠ .unimplemented)) := by
  have hk : n.toNat - 3 = k.val := by omega
  cases hz : c.ext.zihpm
  · simp [counterReadable, counterKind, show ¬ n.toNat < 3 by omega, hz]
  · cases hp : c.hpm[k] <;> simp_all [counterReadable, counterKind]

theorem counterValue_constant {s : State} {n : BitVec 5} {k : Fin 29} (h : n.toNat = k.val + 3) {v : BitVec 64}
    (hv : s.cfg.hpm[k] = .constant v) : counterValue s n = v := by
  have hk : n.toNat - 3 = k.val := by omega
  rw [Fin.getElem_fin] at hv
  simp [counterValue, show ¬ n.toNat < 3 by omega, hk, hv]

theorem counterValue_counting {s : State} {n : BitVec 5} {k : Fin 29} (h : n.toNat = k.val + 3)
    (hv : s.cfg.hpm[k] = .counting) : counterValue s n = s.hpm[k] := by
  have hk : n.toNat - 3 = k.val := by omega
  rw [Fin.getElem_fin] at hv
  simp [counterValue, show ¬ n.toNat < 3 by omega, hk, hv]

/-- A counter is there exactly if it may be read, and then it is the value a read gives. -/
theorem counterIs_iff {s : State} {n : BitVec 5} {v : BitVec 64} (hacc : s.cfg.counterAccess = true) :
    CounterIs s n v ↔ counterReadable s.cfg n = true ∧ v = counterValue s n := by
  by_cases hn : n.toNat < 3
  · have hno : ¬ ∃ k : Fin 29, n.toNat = k.val + 3 ∧
        (s.cfg.hpm[k] = .counting ∧ v = s.hpm[k] ∨ s.cfg.hpm[k] = .constant v) := by
      rintro ⟨k, hk, -⟩
      omega
    rw [CounterIs, counterReadable_lo hn, hacc, Bool.true_and]
    simp only [hno, and_false, or_false]
    refine and_congr_right fun _ => ?_
    obtain rfl | rfl | rfl : n = 0#5 ∨ n = 1#5 ∨ n = 2#5 := by bv_omega
    all_goals simp [counterValue]
  · obtain ⟨k, hk⟩ : ∃ k : Fin 29, n.toNat = k.val + 3 := ⟨⟨n.toNat - 3, by omega⟩, by simp only; omega⟩
    have hlo : ¬ (n = 0 ∧ v = s.cycle ∨ n = 1 ∧ v = s.time ∨ n = 2 ∧ v = s.instret) := by
      rintro (⟨rfl, -⟩ | ⟨rfl, -⟩ | ⟨rfl, -⟩) <;> exact hn (by decide)
    have hex : (∃ j : Fin 29, n.toNat = j.val + 3 ∧
        (s.cfg.hpm[j] = .counting ∧ v = s.hpm[j] ∨ s.cfg.hpm[j] = .constant v)) ↔
        (s.cfg.hpm[k] = .counting ∧ v = s.hpm[k] ∨ s.cfg.hpm[k] = .constant v) := by
      refine ⟨?_, fun h => ⟨k, hk, h⟩⟩
      rintro ⟨j, hj, h⟩
      obtain rfl : j = k := Fin.ext (by omega)
      exact h
    rw [CounterIs, counterReadable_hi k hk, hacc, hex]
    simp only [hlo, and_false, false_or]
    cases hp : s.cfg.hpm[k] with
    | unimplemented => simp
    | constant w => simp [counterValue_constant hk hp, @eq_comm _ w]
    | counting => simp [counterValue_counting hk hp]

theorem counterReadable_eq_false {s : State} {n : BitVec 5}
    (h : s.cfg.counterAccess = false ∨ ¬ ∃ v, CounterIs s n v) : counterReadable s.cfg n = false := by
  cases hacc : s.cfg.counterAccess with
  | false => simp [counterReadable, hacc]
  | true =>
    have hno := h.resolve_left (by simp [hacc])
    rw [← Bool.not_eq_true]
    exact fun hr => hno ⟨_, (counterIs_iff hacc).2 ⟨hr, rfl⟩⟩

theorem csrRead_counterHigh (s : State) (n : BitVec 5) : csrRead (.counterHigh n) s = counterValue s n >>> 32 := by
  apply BitVec.eq_of_toNat_eq
  simp only [csrRead, BitVec.toNat_setWidth, BitVec.extractLsb'_toNat, BitVec.toNat_ushiftRight, Nat.shiftRight_eq_div_pow]
  omega

/-- CSRRS with `x0` of a CSR that may be read. -/
theorem csrrs_zero_spec {s : State} {a : BitVec 12} {r : CsrName} (hr : csrAt a = some r)
    (hp : csrPermitted s.cfg r false = true) (rd : RegNum) :
    ∃ t, exec (.csrrs rd a 0) s = .next t ∧ Retired 4 s t ∧ readX rd t = writtenX s.cfg.xlen rd (csrRead r s) ∧
      KeptXBut rd s t ∧ KeptBeyondX s t := by
  obtain ⟨t, ht, hret, hrd, hfcsr, hx, hf, hcount, hmem, hcontrol, hres⟩ :=
    csrAccess_spec (update := none) hr hp rd (encode (.csrrs rd a 0))
  exact ⟨t, ht, hret, hrd, hx, hf, hfcsr, hcount, hmem, hcontrol, hres⟩

/-- CSRRW of a CSR that may be written. -/
theorem csrrw_spec {s : State} {a : BitVec 12} {r : CsrName} (hr : csrAt a = some r)
    (hp : csrPermitted s.cfg r true = true) (rd rs1 : RegNum) :
    ∃ t, exec (.csrrw rd a rs1) s = .next t ∧ readX rd t = writtenX s.cfg.xlen rd (csrRead r s) ∧
      t.frm = (csrWrite r (readX rs1 s) s).frm ∧ t.fflags = (csrWrite r (readX rs1 s) s).fflags := by
  obtain ⟨t, ht, -, hrd, ⟨hfrm, hfl⟩, -⟩ :=
    csrAccess_spec (update := some (fun _ => readX rs1 s)) hr hp rd (encode (.csrrw rd a rs1))
  exact ⟨t, ht, hrd, hfrm, hfl⟩

/-- Settles O24: the map of `csrAt`, the counters by `counterIs_iff`, the widths by `csrrw_spec`. -/
theorem csrsAndCounters : Obligations.CsrsAndCounters := by
  refine ⟨⟨rfl, rfl, rfl, csrAt_counter, fun a => csrAt_ne_none⟩, fun s rd n v hacc hv => ?_,
    fun s n write => ⟨fun h => ?_, fun hx => ?_, ?_, ?_⟩, fun s rd rs1 hfp => ?_⟩
  · obtain ⟨hread, rfl⟩ := (counterIs_iff hacc).1 hv
    have htrunc : writtenX s.cfg.xlen rd (csrRead (.counter n) s) = writtenX s.cfg.xlen rd (counterValue s n) :=
      writtenX_congr rd (truncX_truncX ..)
    refine ⟨?_, fun hxlen => ?_⟩
    · rw [← htrunc]
      exact csrrs_zero_spec (csrAt_counter n).1 hread rd
    · rw [← csrRead_counterHigh]
      exact csrrs_zero_spec (csrAt_counter n).2 (by simp [csrPermitted, hxlen, hread]) rd
  · simp [csrPermitted, counterReadable_eq_false h]
  · simp [csrPermitted, hx]
  · exact truncX_toNat ..
  · rw [csrRead_counterHigh, BitVec.toNat_ushiftRight, Nat.shiftRight_eq_div_pow]
  · have hp : (s.cfg.ext.f || s.cfg.ext.zfinx) = true := by simpa using hfp
    obtain ⟨t, ht, hrd, hfrm, hfl⟩ := csrrw_spec (s := s) (a := 0x001) (r := .fflags) rfl hp rd rs1
    obtain ⟨t', ht', hrd', hfrm', hfl'⟩ := csrrw_spec (s := s) (a := 0x002) (r := .frm) rfl hp rd rs1
    obtain ⟨u, hu, hrdu, hfrmu, hflu⟩ := csrrw_spec (s := s) (a := 0x003) (r := .fcsr) rfl hp rd rs1
    refine ⟨⟨t, ht, hrd, hfl, hfrm⟩, ⟨t', ht', hrd', hfrm', hfl'⟩, u, hu, hrdu, ?_⟩
    rw [hfrmu, hflu]
    exact BitVec.extractLsb'_append_extractLsb'_eq_extractLsb' rfl

end Sys2Proof.Machine
end
section
/-! PROOFS. The step: what it starts with, what it fetches, what becomes of a pending trap; the launch. -/

namespace Sys2Proof.Machine

/-! ### The start -/

/-- Settles O53: the clock and then `agentTurn_spec`. -/
theorem stepStart : Obligations.StepStart := by
  intro s
  refine ⟨KeptX.of_eq (by simp) (by simp), KeptF.of_eq (by simp) (by simp), ⟨by simp, by simp⟩, by simp, by simp, by simp,
    by simp, by simp, ?_, ?_, fun n => ?_, fun h => ?_, fun h => ?_, fun turn => agentTurn_spec turn s⟩
  all_goals obtain ⟨-, -, ⟨-, ⟨hcycle, htime, hhpm⟩, -⟩, -, -, hsilent, hturn⟩ := agentTurn_spec 0 (tick s)
  · exact hcycle
  · exact htime
  · change (startStep s).hpm = _ at hhpm
    rw [hhpm, tick, Fin.getElem_fin, Vector.getElem_ofFn]
    cases hk : s.cfg.hpm[n] <;> simp_all [hpmTick]
  · exact hsilent h
  · exact (hturn h).1

/-! ### Steps by what is fetched -/

section Fetch

variable {s : State} {w : InstrWord}

theorem step_of_accessFault (htrap : s.trap = none) (hf : fetch (startStep s) = .accessFault) :
    step s = .next (trapped .instrAccessFault (curPc s) (startStep s)) := by
  obtain ⟨r, hr, -⟩ | ⟨-, -, heq⟩ | ⟨-, w, hw, -⟩ := step_cases s
  · exact absurd (htrap.symm.trans hr) nofun
  · simpa [curPc] using heq
  · exact absurd (hf.symm.trans hw) nofun

theorem step_of_rejected {why : Reject} (htrap : s.trap = none) (hf : fetch (startStep s) = .word w)
    (hd : decode s.cfg w = .rejected why) : step s = illegal w (startStep s) := by
  obtain ⟨r, hr, -⟩ | ⟨-, hno, -⟩ | ⟨-, v, hv, ⟨-, -, heq⟩ | ⟨i, hi, -⟩⟩ := step_cases s
  · exact absurd (htrap.symm.trans hr) nofun
  · exact absurd (hf.symm.trans hno) nofun
  · cases hf.symm.trans hv
    exact heq
  · cases hf.symm.trans hv
    exact absurd (hd.symm.trans hi) nofun

theorem step_of_instr {i : Instr} (htrap : s.trap = none) (hf : fetch (startStep s) = .word w)
    (hd : decode s.cfg w = .instr i) : step s = exec i (observe i (startStep s)) := by
  obtain ⟨r, hr, -⟩ | ⟨-, hno, -⟩ | ⟨-, v, hv, ⟨r, hr, -⟩ | ⟨j, hj, heq⟩⟩ := step_cases s
  · exact absurd (htrap.symm.trans hr) nofun
  · exact absurd (hf.symm.trans hno) nofun
  · cases hf.symm.trans hv
    exact absurd (hd.symm.trans hr) nofun
  · cases hf.symm.trans hv
    cases hd.symm.trans hj
    exact heq

end Fetch

/-! ### Words that do not decode -/

theorem extractLsb'_setWidth_of_le {n m l k : Nat} (w : BitVec n) (h : l + k ≤ m) :
    (w.setWidth m).extractLsb' l k = w.extractLsb' l k := by
  ext i hi
  simp [show l + i < m by omega]

/-- The length is in the low half. -/
theorem isCompressed_low (w : InstrWord) : isCompressed ((w.setWidth 16).setWidth 32) = isCompressed w := by
  rw [isCompressed, extractLsb'_setWidth_of_le _ (by decide), extractLsb'_setWidth_of_le _ (by decide), isCompressed]

theorem isLong_low (w : InstrWord) : isLong ((w.setWidth 16).setWidth 32) = isLong w := by
  rw [isLong, extractLsb'_setWidth_of_le _ (by decide), extractLsb'_setWidth_of_le _ (by decide), isLong]

theorem isCompressed_of_zeros {w : InstrWord} (h : w.setWidth 16 = 0#16) : isCompressed w = true := by
  rw [← isCompressed_low, h]
  rfl

/-- Settles O51: by the branches of `decode` and `secondParcel`, and `step_of_rejected`. -/
theorem alwaysIllegal : Obligations.AlwaysIllegal := by
  refine ⟨fun c w hw => ?_, fun c => rfl, fun c => ?_, fun c => rfl, fun s w why htrap hf hd => ?_⟩
  · simp [decode, isCompressed_of_zeros hw, hw]
  · cases hc : c.ext.c <;> simp [secondParcel, hc, isCompressed]
  · rw [step_of_rejected htrap hf hd, illegal_eq, startStep_cfg]

/-- Settles O52: each word is the encoding of its instruction. -/
theorem decodeWords : Obligations.DecodeWords := by
  have h : ∀ i : Instr, i.wf Config.reset = true → ∀ w, encode i = w → decode Config.reset w = .instr i :=
    fun i hi w hw => hw ▸ decodeOfEncode Config.reset i hi
  exact ⟨h _ rfl _ rfl, h _ rfl _ rfl, h _ rfl _ rfl, h _ rfl _ rfl, h _ rfl _ rfl, h _ rfl _ rfl, h _ rfl _ rfl,
    h _ rfl _ rfl⟩

/-! ### What is fetched -/

theorem byteAddr_add (c : Cfg) (a : Word) (j k : Nat) : byteAddr c (a + BitVec.ofNat 64 j) k = byteAddr c a (j + k) := by
  have hdvd : 2 ^ c.xlen.bits ∣ 2 ^ 64 := Nat.pow_dvd_pow 2 (xlenBits_le c.xlen)
  rw [byteAddr, byteAddr, truncX_toNat, truncX_toNat, BitVec.toNat_add, BitVec.toNat_ofNat, Nat.add_mod_mod,
    Nat.mod_mod_of_dvd _ hdvd, Nat.mod_add_mod, Nat.mod_add_mod, Nat.add_assoc]

theorem byteAddrs_two (c : Cfg) (a : Word) : byteAddrs c a 2 = [byteAddr c a 0, byteAddr c a 1] := rfl

theorem fetchParcel_eq_none {s : State} {a : Word} (h : ∃ k, k < 2 ∧ fetchPermitted s.cfg (byteAddr s.cfg a k) = false) :
    fetchParcel s a = none := by
  obtain ⟨k, hk, hforbid⟩ := h
  have : (byteAddrs s.cfg a 2).all (fetchPermitted s.cfg) = false := by
    rw [List.all_eq_false]
    exact ⟨_, mem_byteAddrs.2 ⟨k, hk, rfl⟩, by simp [hforbid]⟩
  simp [fetchParcel, this]

theorem fetchParcel_eq_some {s : State} {a : Word} {b0 b1 : Byte}
    (hp : ∀ k, k < 2 → fetchPermitted s.cfg (byteAddr s.cfg a k) = true) (h0 : fetchByte s (byteAddr s.cfg a 0) = b0)
    (h1 : fetchByte s (byteAddr s.cfg a 1) = b1) : fetchParcel s a = some (b1 ++ b0) := by
  have hall : (byteAddrs s.cfg a 2).all (fetchPermitted s.cfg) = true := by
    simp [byteAddrs_two, hp 0 (by decide), hp 1 (by decide)]
  rw [fetchParcel, if_pos hall, byteAddrs_two, Option.some.injEq]
  apply BitVec.eq_of_toNat_eq
  simp only [List.map_cons, List.map_nil, h0, h1, bytesToNat, BitVec.toNat_ofNat, BitVec.toNat_append]
  rw [← Nat.shiftLeft_add_eq_or_of_lt b0.isLt, Nat.shiftLeft_eq]
  omega

/-- A byte of main memory that no store has changed since the last FENCE.I is fetched as it is loaded. -/
theorem fetchByte_of_no_older {s : State} {a : Nat} (hio : isIo s.cfg a = false) (h : staleValues s a = []) :
    fetchByte s a = readByte s a := by
  simp [fetchByte, readByte, hio, h]

theorem secondParcel_compressed {c : Cfg} {p : Parcel} (hc : isCompressed (p.setWidth 32) = true) (hp : p ≠ 0) :
    secondParcel c p = .absent := by
  rw [secondParcel, if_pos hc, if_neg fun h => hp h.1]

theorem secondParcel_word {c : Cfg} {p : Parcel} (hc : isCompressed (p.setWidth 32) = false)
    (hl : isLong (p.setWidth 32) = false) : secondParcel c p = .required := by
  simp [secondParcel, hc, hl]

/-- A 16-bit instruction is decoded from the first parcel. -/
theorem decode_low {c : Cfg} {w : InstrWord} (h : isCompressed w = true) :
    decode c ((w.setWidth 16).setWidth 32) = decode c w := by
  have : ((w.setWidth 16).setWidth 32).setWidth 16 = w.setWidth 16 := by simp
  simp [decode, isCompressed_low, h, this]

theorem wordOfBytes_eq (b0 b1 b2 b3 : Byte) :
    wordOfBytes b0 b1 b2 b3 = (b3 ++ b2) ++ (b1 ++ b0) ∧ (wordOfBytes b0 b1 b2 b3).setWidth 16 = b1 ++ b0 := by
  have hword : wordOfBytes b0 b1 b2 b3 = (b3 ++ b2) ++ (b1 ++ b0) := BitVec.append_assoc
  exact ⟨hword, by rw [hword, BitVec.setWidth_append]; rfl⟩

/-- The bytes of an instruction that decodes, at the pc, are fetched, as many as it has. -/
theorem fetch_of_bytes {u : State} {b0 b1 b2 b3 : Byte} {i : Instr} (hd : decode u.cfg (wordOfBytes b0 b1 b2 b3) = .instr i)
    (hp : ∀ k, k < wordLen (wordOfBytes b0 b1 b2 b3) → fetchPermitted u.cfg (byteAddr u.cfg (curPc u) k) = true ∧
      fetchByte u (byteAddr u.cfg (curPc u) k) = [b0, b1, b2, b3].getD k 0) :
    ∃ w, fetch u = .word w ∧ decode u.cfg w = .instr i := by
  obtain ⟨hword, hlow⟩ := wordOfBytes_eq b0 b1 b2 b3
  have hlen : 2 ≤ wordLen (wordOfBytes b0 b1 b2 b3) := by
    unfold wordLen
    split <;> decide
  have hfirst : fetchParcel u (curPc u) = some (b1 ++ b0) :=
    fetchParcel_eq_some (fun k hk => (hp k (by omega)).1) (hp 0 (by omega)).2 (hp 1 (by omega)).2
  cases hc : isCompressed (wordOfBytes b0 b1 b2 b3) with
  | true =>
    have hne : b1 ++ b0 ≠ 0#16 := fun h0 => by simp [decode, hc, hlow, h0] at hd
    refine ⟨(b1 ++ b0).setWidth 32, ?_, ?_⟩
    · rw [fetch, hfirst]
      dsimp only
      rw [secondParcel_compressed (by rw [← hlow, isCompressed_low, hc]) hne]
    · rw [← hlow, decode_low hc, hd]
  | false =>
    have hl : isLong (wordOfBytes b0 b1 b2 b3) = false := by
      rw [← Bool.not_eq_true]
      intro hl
      simp only [decode, hc, hl, Bool.false_eq_true, if_false, if_true] at hd
      split at hd <;> exact absurd hd nofun
    have hlen : wordLen (wordOfBytes b0 b1 b2 b3) = 4 := by simp [wordLen, hc]
    have hsecond : fetchParcel u (curPc u + 2) = some (b3 ++ b2) := by
      refine fetchParcel_eq_some (fun k hk => ?_) ?_ ?_
      · exact byteAddr_add u.cfg (curPc u) 2 k ▸ (hp (2 + k) (by omega)).1
      · exact byteAddr_add u.cfg (curPc u) 2 0 ▸ (hp 2 (by omega)).2
      · exact byteAddr_add u.cfg (curPc u) 2 1 ▸ (hp 3 (by omega)).2
    refine ⟨_, ?_, hd⟩
    rw [fetch, hfirst]
    dsimp only
    rw [secondParcel_word (by rw [← hlow, isCompressed_low, hc]) (by rw [← hlow, isLong_low, hl]), hsecond, hword]

/-- Settles O54: `fetch_of_bytes`, and `observe` notes the loop only. -/
theorem stepRunsDecoded : Obligations.StepRunsDecoded := by
  rintro s u b0 b1 b2 b3 i htrap rfl hbytes hd
  have hpc : curPc (startStep s) = curPc s := by simp [curPc]
  obtain ⟨w, hw, hdw⟩ := fetch_of_bytes (u := startStep s) (by simpa using hd) fun k hk => by
    obtain ⟨hio, hperm, hold, hread⟩ := hbytes k hk
    rw [hpc, startStep_cfg]
    exact ⟨hperm, (fetchByte_of_no_older (by simpa using hio) hold).trans hread⟩
  refine ⟨step_of_instr htrap hw (by simpa using hdw), ?_⟩
  unfold observe
  dsimp only
  split <;> rfl

/-- Settles O55: the parcel that is not there. -/
theorem fetchFaults : Obligations.FetchFaults := by
  intro s htrap
  have hpc : curPc (startStep s) = curPc s := by simp [curPc]
  refine ⟨fun hforbid => ?_, fun p hp hlow hhigh ⟨k, h2, h4, hforbid⟩ => ?_⟩
  · have hnone : fetchParcel (startStep s) (curPc (startStep s)) = none :=
      fetchParcel_eq_none (by simpa [hpc] using hforbid)
    exact step_of_accessFault htrap (by rw [fetch, hnone])
  · have hcomp : isCompressed (p.setWidth 32) = false := by
      rw [isCompressed, extractLsb'_setWidth_of_le _ (by decide), hlow]
      rfl
    have hlong : isLong (p.setWidth 32) = false := by
      rw [isLong, extractLsb'_setWidth_of_le _ (by decide), beq_eq_false_iff_ne]
      intro h
      refine hhigh ?_
      have : (p.extractLsb' 0 5).extractLsb' 2 3 = p.extractLsb' 2 3 := by
        ext i hi
        simp
      rw [← this, h]
      rfl
    have hnone : fetchParcel (startStep s) (curPc (startStep s) + 2) = none :=
      fetchParcel_eq_none ⟨k - 2, by omega, by
        rw [hpc, startStep_cfg, show (2 : Word) = BitVec.ofNat 64 2 from rfl, byteAddr_add, show 2 + (k - 2) = k by omega]
        exact hforbid⟩
    refine step_of_accessFault htrap ?_
    rw [fetch, hpc, hp]
    dsimp only
    rw [secondParcel_word hcomp hlong]
    dsimp only
    rw [← hpc, hnone]

/-! ### A pending trap -/

theorem step_of_trap {s : State} {r : TrapRecord} (h : s.trap = some r) : step s = resolveTrap r (startStep s) := by
  obtain ⟨q, hq, heq⟩ | ⟨hno, -⟩ | ⟨hno, -⟩ := step_cases s
  · cases h.symm.trans hq
    exact heq
  · exact absurd (hno.symm.trans h) nofun
  · exact absurd (hno.symm.trans h) nofun

theorem readX_resume (reply : HandlerReply) (s : State) {q : RegNum} (hq : q ≠ 0) :
    readX q (resume reply s) = truncX s.cfg.xlen (reply.regs.x[q.toNat]'(q.isLt)) := by
  rw [readX, if_neg hq, resume_cfg]
  simp [resume]

theorem readF_resume (reply : HandlerReply) (s : State) (q : RegNum) :
    readF q (resume reply s) = ((reply.regs.f[q.toNat]'(q.isLt)).setWidth (flen s.cfg)).setWidth 128 := by
  rw [readF, resume_cfg]
  simp only [resume, Vector.getElem_map]
  rw [BitVec.setWidth_setWidth_of_le _ (flen_le _), BitVec.setWidth_eq]

/-- Settles O56: the three cases of `resolveTrap`. -/
theorem pendingTrapResolved : Obligations.PendingTrapResolved := by
  rintro s u r htrap rfl
  rw [step_of_trap htrap, ← startStep_draw]
  have hcases := resolveTrap_cases r (startStep s)
  rw [startStep_cfg] at hcases
  refine ⟨fun hp => ?_, fun hp hstop => ?_, fun reply hp hreply => ?_⟩
  all_goals obtain ⟨hq, heq⟩ | ⟨hq, hno, heq⟩ | ⟨hq, reply', hre, heq⟩ := hcases
  · exact heq
  · exact absurd (hp.symm.trans hq) nofun
  · exact absurd (hp.symm.trans hq) nofun
  · exact absurd (hp.symm.trans hq) nofun
  · exact heq
  · exact absurd (hstop.symm.trans hre) nofun
  · exact absurd (hp.symm.trans hq) nofun
  · exact absurd (hno.symm.trans hreply) nofun
  · cases hreply.symm.trans hre
    refine ⟨_, heq, rfl, by rw [resume_cfg, startStep_cfg], rfl, rfl, by simp [resume], ⟨by simp [resume], by simp [resume],
      by simp [resume]⟩, by simp [resume], rfl, by simpa using resume_pc reply (startStep s), fun q hq0 => ?_, fun q => ?_, ?_⟩
    · rw [readX_resume reply (startStep s) hq0, startStep_cfg]
    · rw [readF_resume, startStep_cfg]
    · have h := envWrite_spec 1 (wrapCells (startStep s).cfg reply.writes) (startStep s)
      rw [startStep_cfg] at h
      exact startStep_cfg s ▸ h

/-! ### The launch -/

/-- Settles O60. -/
theorem resetState : Obligations.ResetState := by
  refine ⟨fun c l => ⟨rfl, rfl, rfl, rfl, rfl, rfl, rfl, rfl, rfl, rfl, rfl, rfl, rfl, rfl, rfl, rfl, rfl⟩,
    rfl, rfl, rfl, rfl, rfl, rfl, rfl, rfl, rfl, fun n => ?_, rfl, rfl, rfl, fun r => ?_, fun r => ?_, by decide⟩
  · simp [State.reset, State.launch, Launch.zero]
  · simp [readX, State.reset, State.launch, Launch.zero]
  · simp [readF, State.reset, State.launch, Launch.zero]

end Sys2Proof.Machine
end
section
/-! PROOFS. The floating-point instructions: each is one of the shared shapes; the operands and where results go. -/

namespace Sys2Proof.Machine

/-! ### The rounding-mode check -/

theorem withRm_some {rm : BitVec 3} {s : State} {m : Rm} (h : effectiveRm rm s.frm = some m) (bits : InstrWord)
    (body : Rm → Res) : withRm rm bits s body = body m := by
  rw [withRm, h]

theorem withRm_none {rm : BitVec 3} {s : State} (h : effectiveRm rm s.frm = none) (bits : InstrWord)
    (body : Rm → Res) : withRm rm bits s body = illegal bits s := by
  rw [withRm, h]

/-- What holds of every entry of a table holds of each. -/
theorem of_mem_table {α : Type} {P : α → Prop} {table : List α} {a : α} (h : a ∈ table) (hall : table.Forall P) : P a :=
  List.forall_iff_forall_mem.1 hall a h

/-- Settles O27: each hands its own encoding to `withRm`. -/
theorem reservedRoundingModeTraps : Obligations.ReservedRoundingModeTraps := by
  intro s rd rs1 rs2 rs3 rm i hrm h
  refine of_mem_table (P := fun i => exec i s = illegal (encode i) s) h ?_
  simp only [List.Forall]
  and_intros
  all_goals exact withRm_none hrm _ _

/-! ### A result of a format -/

/-- Settles O26: the shapes `fpBinary`, `fpUnary` and `fpTernary`. -/
theorem floatArithmeticResult : Obligations.FloatArithmeticResult := by
  intro s rd rs1 rs2 rs3 rm m i r hrm hholds h
  have hexec : exec i s = finishFp r.1 rd r.2 s := by
    refine of_mem_table (P := fun p => exec p.1 s = finishFp p.2.1 rd p.2.2 s) h ?_
    simp only [List.Forall]
    and_intros
    all_goals exact withRm_some hrm _ _
  rw [hexec]
  exact finishFp_spec r.1 rd r.2 s hholds

/-- Settles O28: the shape `fpSelect`. -/
theorem floatSelectResult : Obligations.FloatSelectResult := by
  intro s rd rs1 rs2 i r hholds h
  have hexec : exec i s = finishFp r.1 rd r.2 s :=
    List.map_inj_left (f := fun p => exec p.1 s) (g := fun p => finishFp p.2.1 rd p.2.2 s) |>.1 rfl _ h
  rw [hexec]
  exact finishFp_spec r.1 rd r.2 s hholds

/-! ### A result in an integer register -/

/-- The value a conversion to an integer type delivers, before it is cut to XLEN bits. -/
def intExtended (k : IntTy) (r : Int) : Word :=
  match k with
  | .w => (BitVec.ofInt 32 r).signExtend 64
  | .wu => (BitVec.ofInt 32 r).signExtend 64
  | .l => BitVec.ofInt 64 r
  | .lu => BitVec.ofInt 64 r

theorem writtenX_intResult (c : Xlen) (rd : RegNum) (k : IntTy) (r : Int) :
    writtenX c rd (intResult c k r) = writtenX c rd (intExtended k r) := by
  apply writtenX_congr
  cases k <;> exact truncX_truncX _ _

/-- Settles O31: the shape `fpToInt`. -/
theorem floatToIntegerResult : Obligations.FloatToIntegerResult := by
  intro s rd rs1 rm m i k r hrm h
  have hexec : exec i s = finishInt rd (intResult s.cfg.xlen k r.1) r.2 s := by
    refine of_mem_table (P := fun p => exec p.1 s = finishInt rd (intResult s.cfg.xlen p.2.1 p.2.2.1) p.2.2.2 s) h ?_
    simp only [List.Forall]
    and_intros
    all_goals exact withRm_some hrm _ _
  rw [hexec]
  obtain ⟨t, ht, hret, hrd, hx, hf, hfl, hkept⟩ := finishInt_spec rd (intResult s.cfg.xlen k r.1) r.2 s
  exact ⟨t, ht, hret, hrd.trans (writtenX_intResult ..), hfl, hx, hf, hkept⟩

theorem two_pow_eq_shift (bit : Nat) : BitVec.ofNat 64 (2 ^ bit) = 1#64 <<< bit := by
  apply BitVec.eq_of_toNat_eq
  simp [Nat.shiftLeft_eq]

/-- The class of a pattern, by what it stands for. -/
theorem fpClassBit_eq (t : Fmt) (v : FpBits t) :
    match fpUnpack t v with
    | .inf neg => fpClassBit t v = if neg then 0 else 7
    | .nan signalling => fpClassBit t v = if signalling then 8 else 9
    | .num neg m _ =>
      fpClassBit t v = if m = 0 then (if neg then 3 else 4)
        else if fpMagnitude t v < 2 ^ t.fracBits then (if neg then 2 else 5)
        else (if neg then 1 else 6) := by
  have hsub : fpMagnitude t v / 2 ^ t.fracBits = 0 ↔ fpMagnitude t v < 2 ^ t.fracBits :=
    Nat.div_eq_zero_iff_lt (Nat.two_pow_pos _)
  unfold fpClassBit
  cases fpUnpack t v with
  | nan signalling => cases signalling <;> rfl
  | inf neg => cases neg <;> rfl
  | num neg m e => cases neg <;> simp only [hsub, decide_eq_true_eq, Bool.false_eq_true, if_true, if_false]

/-- Settles O30: the shape `fpClassify`, by `fpClassBit_eq`. -/
theorem floatClassResult : Obligations.FloatClassResult := by
  intro s rd rs1 i v h
  have hexec : exec i s = finishInt rd (BitVec.ofNat 64 (2 ^ fpClassBit v.1 v.2)) flagsNone s :=
    List.map_inj_left (f := fun p => exec p.1 s)
      (g := fun p => finishInt rd (BitVec.ofNat 64 (2 ^ fpClassBit p.2.1 p.2.2)) flagsNone s) |>.1 rfl _ h
  rw [hexec, two_pow_eq_shift]
  obtain ⟨t, ht, hret, hrd, hx, hf, hfl, hkept⟩ := finishInt_spec rd (1#64 <<< fpClassBit v.1 v.2) flagsNone s
  exact ⟨t, _, ht, hret, hrd, fpClassBit_eq v.1 v.2, hfl.trans (by simp [flagsNone]), hx, hf, hkept⟩

/-- A comparison delivers what its function gives. -/
theorem floatCompare_delivered {s : State} {rd : RegNum} {i : Instr} {r : Bool × FpFlags}
    (hexec : exec i s = finishInt rd (if r.1 then 1 else 0) r.2 s) :
    ∃ t, exec i s = .next t ∧ Retired 4 s t ∧ readX rd t = writtenX s.cfg.xlen rd (if r.1 then 1 else 0) ∧
      t.fflags = s.fflags ||| r.2 ∧ KeptXBut rd s t ∧ KeptF s t ∧ KeptBeyondFp s t := by
  obtain ⟨t, ht, hret, hrd, hx, hf, hfl, hkept⟩ := finishInt_spec rd (if r.1 then 1 else 0) r.2 s
  exact ⟨t, hexec.trans ht, hret, hrd, hfl, hx, hf, hkept⟩

/-! ### Moves -/

/-- Settles O33: the shapes `moveToX` and `moveFromX`. -/
theorem floatMoveResult : Obligations.FloatMoveResult := by
  refine fun s rd rs1 fmt => ⟨fun i h => ?_, fun i hw h => ?_⟩
  · have hexec : exec i s = moveToX fmt rd rs1 s :=
      List.map_inj_left (f := fun p => exec p.1 s) (g := fun p => moveToX p.2 rd rs1 s) |>.1 rfl _ h
    obtain ⟨t, ht, hret, hrd, hkept⟩ := retire_writeX_spec 4 rd (sextX s.cfg.xlen (readFRaw fmt rs1 s)) s
    exact ⟨t, hexec.trans ht, hret, hrd.trans (writtenX_congr rd (truncX_truncX _ _)), hkept⟩
  · have hexec : exec i s = moveFromX fmt rd rs1 s :=
      List.map_inj_left (f := fun p => exec p.1 s) (g := fun p => moveFromX p.2 rd rs1 s) |>.1 rfl _ h
    obtain ⟨t, ht, hmem, hret, hrd, hf, hx, hst⟩ := retire_writeFBoxed_memory_spec 4 rd
      ((readX rs1 s).setWidth fmt.width) (s := s) hw rfl rfl rfl rfl rfl rfl ⟨rfl, rfl, rfl⟩ ⟨rfl, rfl, rfl⟩
    exact ⟨t, hexec.trans ht, hret, hrd, hf, hx, hst, ⟨hmem.readByte_eq, hmem.same.2.1, hmem.same.2.2.1⟩,
      hmem.keptReservation ⟨rfl, rfl⟩⟩

/-! ### Operands -/

theorem extractLsb'_eq_allOnes_iff {v : FWord} {k n : Nat} :
    v.extractLsb' k n = BitVec.allOnes n ↔ ∀ j, k ≤ j → j < k + n → v.getLsbD j = true := by
  constructor
  · intro h j hk hj
    have hbit := congrArg (fun u => BitVec.getLsbD u (j - k)) h
    simpa [show j - k < n by omega, show k + (j - k) = j by omega] using hbit
  · intro h
    ext i hi
    simpa using h (k + i) (by omega) (by omega)

theorem unbox_of_boxed {l : Nat} {t : Fmt} {v : FWord} (hl : t.width ≤ l)
    (h : ∀ j, t.width ≤ j → j < l → v.getLsbD j = true) : unbox l t v = v.setWidth t.width := by
  rw [unbox, if_pos (extractLsb'_eq_allOnes_iff.2 fun j hj hj' => h j hj (by omega))]

theorem unbox_of_not_boxed {l : Nat} {t : Fmt} {v : FWord} (hl : t.width ≤ l)
    (h : ∃ j, t.width ≤ j ∧ j < l ∧ v.getLsbD j = false) : unbox l t v = canonicalNaN t := by
  obtain ⟨j, hj, hj', hbit⟩ := h
  refine if_neg fun hall => ?_
  exact absurd (hbit.symm.trans (extractLsb'_eq_allOnes_iff.1 hall j hj (by omega))) nofun

theorem unbox_box {l : Nat} {t : Fmt} (hl : t.width ≤ l) (hl' : l ≤ 128) (v : FpBits t) : unbox l t (box l t v) = v := by
  have hbits : ∀ j, j < l → (box l t v).getLsbD j = if j < t.width then v.getLsbD j else true := by
    intro j hj
    simp only [box, BitVec.getLsbD_setWidth, BitVec.getLsbD_append, show j < 128 by omega, decide_true, Bool.true_and]
    split
    · rfl
    · simp only [BitVec.getLsbD_allOnes, decide_eq_true_eq]
      omega
  rw [unbox_of_boxed hl fun j hj hj' => by rw [hbits j hj', if_neg (by omega)]]
  ext i hi
  rw [BitVec.getElem_setWidth, hbits i (by omega), if_pos hi, BitVec.getLsbD_eq_getElem hi]

/-- Settles O34: `unbox` in the `f` registers; with Zfinx the register or the pair. -/
theorem nanBoxing : Obligations.NanBoxing := by
  refine ⟨fun s fmt r v hz hw => ⟨fun h => ?_, fun h => ?_, ?_⟩, fun s r hz => ⟨fun fmt hw => ?_, fun hx hr0 heven => ?_,
    fun hx => ?_⟩⟩
  · simpa [readFp, hz] using unbox_of_boxed hw h
  · simpa [readFp, hz] using unbox_of_not_boxed hw h
  · rw [readFp, writeFp, if_neg (by simp [hz]), if_neg (by simp [hz]), readF_writeFBoxed_same fmt r v s hw]
    exact unbox_box hw (flen_le _) v
  · have hp : usesPair s.cfg fmt = false := by
      cases hx : s.cfg.xlen <;> cases fmt <;> simp_all [usesPair, Fmt.width, Xlen.bits]
    simp [readFp, hz, hp]
  · have hp : usesPair s.cfg .d = true := by simp [usesPair, hx]
    have hread : readFp .d r s = (readX (r + 1) s).setWidth 32 ++ (readX r s).setWidth 32 := by
      rw [readFp, if_pos hz, if_pos hp, if_neg hr0]
      exact BitVec.setWidth_eq _
    rw [hread]
    exact ⟨BitVec.extractLsb'_append_eq_right, BitVec.extractLsb'_append_eq_left⟩
  · have hp : usesPair s.cfg .d = true := by simp [usesPair, hx]
    simp [readFp, hz, hp]

/-! ### Patterns from a sign and a magnitude -/

theorem fmt_width_pos (t : Fmt) : 0 < t.width := by cases t <;> decide

theorem fpPack_toNat (t : Fmt) (neg : Bool) {mag : Nat} (h : mag < 2 ^ (t.width - 1)) :
    (fpPack t neg mag).toNat = (if neg then 2 ^ (t.width - 1) else 0) + mag := by
  rw [fpPack, BitVec.toNat_ofNat, Nat.mod_eq_of_lt]
  have : 2 ^ t.width = 2 ^ (t.width - 1) + 2 ^ (t.width - 1) := by
    rw [← Nat.two_mul, ← Nat.pow_succ', Nat.succ_eq_add_one, Nat.sub_add_cancel (fmt_width_pos t)]
  split <;> omega

theorem fpMagnitude_pack (t : Fmt) (neg : Bool) {mag : Nat} (h : mag < 2 ^ (t.width - 1)) :
    fpMagnitude t (fpPack t neg mag) = mag := by
  rw [fpMagnitude, fpPack_toNat t neg h]
  cases neg <;> simp [Nat.mod_eq_of_lt h]

theorem fpSign_pack (t : Fmt) (neg : Bool) {mag : Nat} (h : mag < 2 ^ (t.width - 1)) :
    fpSign t (fpPack t neg mag) = neg := by
  rw [fpSign, BitVec.getLsbD, fpPack_toNat t neg h]
  cases neg
  · simpa using Nat.testBit_lt_two_pow h
  · simp [Nat.testBit_two_pow_add_eq, Nat.testBit_lt_two_pow h]

theorem fpMagnitude_lt (t : Fmt) (v : FpBits t) : fpMagnitude t v < 2 ^ (t.width - 1) := Nat.mod_lt _ (Nat.two_pow_pos _)

/-- Settles O35: the magnitude of the first operand under the sign given. -/
theorem signInjectionBits : Obligations.SignInjectionBits := by
  intro fmt a b r neg h
  have hr : r = (fpWithSign fmt neg a, flagsNone) :=
    List.map_inj_left (f := fun p => p.1) (g := fun p => (fpWithSign fmt p.2 a, flagsNone)) |>.1 rfl _ h
  rw [hr]
  exact ⟨fpSign_pack _ _ (fpMagnitude_lt fmt a), fpMagnitude_pack _ _ (fpMagnitude_lt fmt a), rfl⟩

end Sys2Proof.Machine
end
section
/-! PROOFS. Rounding, of any set of numbers: between the two neighbours of a positive number each mode chooses one; the
choice that `roundToGrid` makes is the mode's; a negative number is rounded as its mirror image. -/

namespace Sys2Proof.Machine

/-! ### The choice between two neighbours -/

/-- How a mode chooses between the neighbours `lo ≤ x < hi` of a number that is not negative: the upper one or not. -/
def Chooses (rm : Rm) (lo x hi : ℝ) (evenLo evenHi : Prop) (up : Bool) : Prop :=
  match rm with
  | .rtz | .rdn => up = false
  | .rup => up = true ↔ lo < x
  | .rne => (up = true → lo + hi < 2 * x ∨ (lo + hi = 2 * x ∧ evenHi)) ∧
      (up = false → 2 * x < lo + hi ∨ (2 * x = lo + hi ∧ evenLo))
  | .rmm => up = true ↔ lo + hi ≤ 2 * x

/-- The neighbour chosen. -/
noncomputable def chosen (lo hi : ℝ) (up : Bool) : ℝ := if up then hi else lo

/-- The lower neighbour is nearer than any other number of the set, but for the upper one in a tie. -/
theorem lower_nearest {lo x hi w : ℝ} (hlo : lo ≤ x) (hhi : x < hi) (hw : w ≤ lo ∨ hi ≤ w) (hnear : 2 * x ≤ lo + hi) :
    w = lo ∨ |x - lo| < |x - w| ∨ (w = hi ∧ 2 * x = lo + hi) := by
  rw [abs_of_nonneg (sub_nonneg.2 hlo)]
  rcases hw with hw | hw
  · rw [abs_of_nonneg (by linarith)]
    rcases hw.eq_or_lt with h | h
    · exact .inl h
    · exact .inr (.inl (by linarith))
  · rw [abs_of_nonpos (by linarith)]
    rcases hw.eq_or_lt with rfl | h
    · rcases hnear.eq_or_lt with h | h
      · exact .inr (.inr ⟨rfl, h⟩)
      · exact .inr (.inl (by linarith))
    · exact .inr (.inl (by linarith))

/-- The upper neighbour is nearer than any other number of the set, but for the lower one in a tie. -/
theorem upper_nearest {lo x hi w : ℝ} (hlo : lo ≤ x) (hhi : x < hi) (hw : w ≤ lo ∨ hi ≤ w) (hnear : lo + hi ≤ 2 * x) :
    w = hi ∨ |x - hi| < |x - w| ∨ (w = lo ∧ 2 * x = lo + hi) := by
  rw [abs_of_neg (sub_neg.2 hhi)]
  rcases hw with hw | hw
  · rw [abs_of_nonneg (by linarith)]
    rcases hw.eq_or_lt with rfl | h
    · rcases hnear.eq_or_lt with h | h
      · exact .inr (.inr ⟨rfl, h.symm⟩)
      · exact .inr (.inl (by linarith))
    · exact .inr (.inl (by linarith))
  · rw [abs_of_nonpos (by linarith)]
    rcases hw.eq_or_lt with h | h
    · exact .inl h.symm
    · exact .inr (.inl (by linarith))

/-- A number that is a neighbour itself is kept. -/
theorem Chooses.not_up {rm : Rm} {x hi : ℝ} {evenLo evenHi : Prop} {up : Bool}
    (h : Chooses rm x x hi evenLo evenHi up) (hhi : x < hi) : up = false := by
  rw [← Bool.not_eq_true]
  intro hup
  cases rm with
  | rtz | rdn => exact absurd (hup.symm.trans h) nofun
  | rup => exact (h.1 hup).false
  | rmm => linarith [h.1 hup]
  | rne => rcases h.1 hup with h | ⟨h, -⟩ <;> linarith

section Core

variable {S E : ℝ → Prop} {rm : Rm} {lo x hi : ℝ} {evenLo evenHi : Prop} {up : Bool}

/-- The neighbour a mode chooses is the number rounded, where the set has nothing between the two. -/
theorem roundsTo_of_chooses (h0 : 0 ≤ lo) (hlo : lo ≤ x) (hhi : x < hi) (hgap : ∀ w, S w → w ≤ lo ∨ hi ≤ w)
    (hS : S (chosen lo hi up)) (hevenLo : up = false → evenLo → E lo) (hevenHi : up = true → evenHi → E hi)
    (hc : Chooses rm lo x hi evenLo evenHi up) : RoundsTo S E rm x (chosen lo hi up) := by
  have hbelow : ∀ w, S w → w ≤ x → w ≤ lo := fun w hw hwx => (hgap w hw).resolve_right (by linarith)
  have habove : ∀ w, S w → lo < w → hi ≤ w := fun w hw hwx => (hgap w hw).resolve_left (by linarith)
  refine ⟨hS, ?_⟩
  cases rm with
  | rtz =>
    obtain rfl : up = false := hc
    refine ⟨mul_nonneg (h0.trans hlo) h0, by simpa [chosen, abs_of_nonneg h0, abs_of_nonneg (h0.trans hlo)] using hlo,
      fun w hw hsign hle => ?_⟩
    rw [abs_of_nonneg (h0.trans hlo)] at hle
    simp only [chosen, Bool.false_eq_true, if_false, abs_of_nonneg h0]
    rcases le_or_gt 0 w with hw0 | hw0
    · rw [abs_of_nonneg hw0] at hle ⊢
      exact hbelow w hw hle
    · have hx0 : x = 0 := by nlinarith
      linarith
  | rdn =>
    obtain rfl : up = false := hc
    exact ⟨hlo, hbelow⟩
  | rup =>
    cases up with
    | false =>
      have hx : x = lo := le_antisymm (not_lt.1 fun h => absurd (hc.2 h) nofun) hlo
      exact ⟨hx.le, fun w _ hw => hx ▸ hw⟩
    | true => exact ⟨hhi.le, fun w hw hwx => habove w hw ((hc.1 rfl).trans_le hwx)⟩
  | rne =>
    obtain ⟨hup, hdown⟩ := hc
    intro w hw
    cases up with
    | false =>
      have hnear : 2 * x ≤ lo + hi := (hdown rfl).elim le_of_lt fun h => h.1.le
      rcases lower_nearest hlo hhi (hgap w hw) hnear with h | h | ⟨rfl, htie⟩
      · exact .inl h
      · exact .inr (.inl h)
      · have heven : evenLo := ((hdown rfl).resolve_left (by linarith)).2
        exact .inr (.inr ⟨abs_eq_abs.2 (.inr (by simp only [chosen, Bool.false_eq_true, if_false]; linarith)),
          hevenLo rfl heven⟩)
    | true =>
      have hnear : lo + hi ≤ 2 * x := (hup rfl).elim le_of_lt fun h => h.1.le
      rcases upper_nearest hlo hhi (hgap w hw) hnear with h | h | ⟨rfl, htie⟩
      · exact .inl h
      · exact .inr (.inl h)
      · have heven : evenHi := ((hup rfl).resolve_left (by linarith)).2
        exact .inr (.inr ⟨abs_eq_abs.2 (.inr (by simp only [chosen, if_true]; linarith)),
          hevenHi rfl heven⟩)
  | rmm =>
    intro w hw
    cases up with
    | false =>
      have hnear : 2 * x < lo + hi := not_le.1 fun h => absurd (hc.2 h) nofun
      rcases lower_nearest hlo hhi (hgap w hw) hnear.le with h | h | ⟨-, htie⟩
      · exact .inl h
      · exact .inr (.inl h)
      · exact absurd htie hnear.ne
    | true =>
      rcases upper_nearest hlo hhi (hgap w hw) (hc.1 rfl) with h | h | ⟨rfl, htie⟩
      · exact .inl h
      · exact .inr (.inl h)
      · refine .inr (.inr ⟨abs_eq_abs.2 (.inr (by simp only [chosen, if_true]; linarith)), ?_⟩)
        rw [chosen, if_pos rfl, abs_of_nonneg h0, abs_of_nonneg (by linarith)]
        linarith

/-- A number of the set is rounded to itself. -/
theorem roundsTo_self {y : ℝ} (h : RoundsTo S E rm x y) (hx : S x) : y = x := by
  obtain ⟨hS, h⟩ := h
  cases rm with
  | rtz =>
    obtain ⟨hsign, hle, hbest⟩ := h
    have habs : |y| = |x| := le_antisymm hle (hbest x hx (mul_self_nonneg x) le_rfl)
    rcases abs_eq_abs.1 habs with h | rfl
    · exact h
    · have : x = 0 := mul_self_eq_zero.1 (le_antisymm (by linarith) (mul_self_nonneg x))
      rw [this, neg_zero]
  | rdn => exact le_antisymm h.1 (h.2 x hx le_rfl)
  | rup => exact le_antisymm (h.2 x hx le_rfl) h.1
  | rne =>
    rcases h x hx with h | h | ⟨h, -⟩
    · exact h.symm
    · exact absurd h (by simp [abs_nonneg])
    · have : x - y = 0 := by simpa using h
      linarith
  | rmm =>
    rcases h x hx with h | h | ⟨h, -⟩
    · exact h.symm
    · exact absurd h (by simp [abs_nonneg])
    · have : x - y = 0 := by simpa using h
      linarith

end Core

/-! ### Negative numbers -/

/-- The mode that does to negative numbers what a mode does to positive ones. -/
def Rm.mirror : Rm → Rm
  | .rne => .rne
  | .rtz => .rtz
  | .rdn => .rup
  | .rup => .rdn
  | .rmm => .rmm

/-- A number with a sign. -/
def signed (neg : Bool) (x : ℝ) : ℝ := if neg then -x else x

theorem abs_signed (neg : Bool) (x : ℝ) : |signed neg x| = |x| := by cases neg <;> simp [signed]

/-- The mode as it acts on magnitudes under a sign. -/
def Rm.forSign (rm : Rm) (neg : Bool) : Rm := if neg then rm.mirror else rm

theorem roundsTo_neg {S E : ℝ → Prop} {rm : Rm} {x y : ℝ} (hS : ∀ w, S (-w) ↔ S w) (hE : ∀ w, E (-w) ↔ E w)
    (h : RoundsTo S E rm.mirror x y) : RoundsTo S E rm (-x) (-y) := by
  obtain ⟨hy, h⟩ := h
  refine ⟨(hS y).2 hy, ?_⟩
  cases rm with
  | rtz =>
    obtain ⟨hsign, hle, hbest⟩ := h
    refine ⟨by simpa using hsign, by simpa using hle, fun w hw hs hl => ?_⟩
    simpa using hbest (-w) ((hS w).2 hw) (by linarith) (by simpa using hl)
  | rdn => exact ⟨neg_le_neg h.1, fun w hw hwx => by linarith [h.2 (-w) ((hS w).2 hw) (by linarith)]⟩
  | rup => exact ⟨neg_le_neg h.1, fun w hw hwx => by linarith [h.2 (-w) ((hS w).2 hw) (by linarith)]⟩
  | rne =>
    intro w hw
    have habs : ∀ v, |-x - v| = |x - -v| := fun v => by rw [← abs_neg]; ring_nf
    rw [habs w, habs (-y), neg_neg, hE]
    exact (h (-w) ((hS w).2 hw)).imp_left fun h => by linarith
  | rmm =>
    intro w hw
    have habs : ∀ v, |-x - v| = |x - -v| := fun v => by rw [← abs_neg]; ring_nf
    rw [habs w, habs (-y), neg_neg, abs_neg, ← abs_neg w]
    exact (h (-w) ((hS w).2 hw)).imp_left fun h => by linarith

theorem roundsTo_signed {S E : ℝ → Prop} {rm : Rm} {x y : ℝ} (hS : ∀ w, S (-w) ↔ S w) (hE : ∀ w, E (-w) ↔ E w)
    {neg : Bool} (h : RoundsTo S E (rm.forSign neg) x y) : RoundsTo S E rm (signed neg x) (signed neg y) := by
  cases neg with
  | false => exact h
  | true => exact roundsTo_neg hS hE h

theorem roundsUp_forSign (rm : Rm) (neg : Bool) (q twice unit : Nat) :
    roundsUp rm neg q twice unit = roundsUp (rm.forSign neg) false q twice unit := by
  cases neg <;> cases rm <;> rfl

theorem roundToGrid_forSign (rm : Rm) (neg : Bool) (m : Nat) (e g : Int) :
    roundToGrid rm neg m e g = roundToGrid (rm.forSign neg) false m e g := by
  simp only [roundToGrid, roundShift, roundsUp_forSign rm neg]


/-! ### The grid -/

/-- `m * 2^e` cut to a multiple of `2^g`, in units of `2^g`. -/
def gridFloor (m : Nat) (e g : Int) : Nat := if g ≤ e then m * 2 ^ (e - g).toNat else m / 2 ^ (g - e).toNat

/-- Whether `roundToGrid` goes up, of a positive number. -/
def gridUp (rm : Rm) (m : Nat) (e g : Int) : Bool :=
  if g ≤ e then false
  else roundsUp rm false (m / 2 ^ (g - e).toNat) (2 * (m % 2 ^ (g - e).toNat)) (2 ^ (g - e).toNat)

theorem roundToGrid_eq (rm : Rm) (m : Nat) (e g : Int) :
    roundToGrid rm false m e g = gridFloor m e g + if gridUp rm m e g then 1 else 0 := by
  by_cases h : g ≤ e <;> simp [roundToGrid, gridFloor, gridUp, roundShift, h]

section Grid

variable {m : Nat} {e g : Int}

theorem two_zpow_pos (n : Int) : (0 : ℝ) < 2 ^ n := zpow_pos two_pos n

theorem two_zpow_add_toNat {a b : Int} (h : a ≤ b) : (2 : ℝ) ^ b = 2 ^ a * ((2 ^ (b - a).toNat : ℕ) : ℝ) := by
  rw [Nat.cast_pow, Nat.cast_ofNat, ← zpow_natCast, ← zpow_add₀ two_ne_zero, Int.toNat_of_nonneg (by omega)]
  congr 1
  omega

/-- A multiple of half a unit, compared with `m * 2^e`, is a comparison of integers. -/
theorem half_unit_lt {m k : Nat} {e g : Int} (hg : g = e + k) (c : Nat) :
    ((c : ℝ) * 2 ^ (g - 1) < m * 2 ^ e ↔ c * 2 ^ k < 2 * m) ∧
    ((m : ℝ) * 2 ^ e < c * 2 ^ (g - 1) ↔ 2 * m < c * 2 ^ k) := by
  have hhalf : (2 : ℝ) ^ (g - 1) * 2 = 2 ^ e * 2 ^ k := by
    rw [← zpow_add_one₀ two_ne_zero, ← zpow_natCast, ← zpow_add₀ two_ne_zero]
    congr 1
    omega
  have he := two_zpow_pos e
  have hc : ((c * 2 ^ k : ℕ) : ℝ) * 2 ^ e = (c : ℝ) * 2 ^ (g - 1) * 2 := by
    rw [mul_assoc, hhalf]
    push_cast
    ring
  have hm : ((2 * m : ℕ) : ℝ) * 2 ^ e = m * 2 ^ e * 2 := by
    push_cast
    ring
  constructor
  · rw [← mul_lt_mul_iff_left₀ two_pos, ← hc, ← hm, mul_lt_mul_iff_left₀ he, Nat.cast_lt]
  · rw [← mul_lt_mul_iff_left₀ two_pos, ← hc, ← hm, mul_lt_mul_iff_left₀ he, Nat.cast_lt]

/-- The quotient and the remainder that `roundToGrid` rounds by. -/
theorem grid_division (rm : Rm) (m : Nat) (e g : Int) :
    ∃ n k : Nat, gridFloor m e g = n / 2 ^ k ∧
      gridUp rm m e g = roundsUp rm false (n / 2 ^ k) (2 * (n % 2 ^ k)) (2 ^ k) ∧
      offGrid m e g = (n % 2 ^ k != 0) ∧
      ∀ c : Nat, ((c : ℝ) * 2 ^ (g - 1) < m * 2 ^ e ↔ c * 2 ^ k < 2 * n) ∧
        ((m : ℝ) * 2 ^ e < c * 2 ^ (g - 1) ↔ 2 * n < c * 2 ^ k) := by
  by_cases h : g ≤ e
  · refine ⟨m * 2 ^ (e - g).toNat, 0, by simp [gridFloor, h], ?_, by simp [offGrid, h, Nat.mod_one], fun c => ?_⟩
    · cases rm <;> simp [gridUp, h, roundsUp, Nat.mod_one]
    · have hvalue : (m : ℝ) * 2 ^ e = ((m * 2 ^ (e - g).toNat : ℕ) : ℝ) * 2 ^ g := by
        rw [two_zpow_add_toNat h, Nat.cast_mul]
        ring
      rw [hvalue]
      exact half_unit_lt (by simp) c
  · refine ⟨m, (g - e).toNat, by simp [gridFloor, h], by simp [gridUp, h], by simp [offGrid, h], half_unit_lt (by omega)⟩

end Grid

/-- A positive number that lies among the multiples of half a unit as `m * 2^e` does, for all units from `2^g` on. -/
def Tracks (x : ℝ) (m : Nat) (e g : Int) : Prop :=
  ∀ h, g ≤ h → ∀ c : Nat, ((c : ℝ) * 2 ^ (h - 1) < x ↔ (c : ℝ) * 2 ^ (h - 1) < m * 2 ^ e) ∧
    (x < (c : ℝ) * 2 ^ (h - 1) ↔ (m : ℝ) * 2 ^ e < c * 2 ^ (h - 1))

theorem tracks_self (m : Nat) (e g : Int) : Tracks (m * 2 ^ e) m e g := fun _ _ _ => ⟨Iff.rfl, Iff.rfl⟩

theorem unit_eq_two_halves (g : Int) : (2 : ℝ) ^ g = 2 * 2 ^ (g - 1) := by
  rw [← zpow_one_add₀ two_ne_zero, add_sub_cancel]

theorem unit_eq_halves (c : Nat) (g : Int) : (c : ℝ) * 2 ^ g = ((2 * c : ℕ) : ℝ) * 2 ^ (g - 1) := by
  rw [unit_eq_two_halves g]
  push_cast
  ring

/-- The neighbours on a grid, the choice `roundToGrid` makes between them, and when there is none to make. -/
theorem grid_chooses {x : ℝ} {m : Nat} {e g₀ g : Int} (ht : Tracks x m e g₀) (hg : g₀ ≤ g) (rm : Rm) :
    (gridFloor m e g : ℝ) * 2 ^ g ≤ x ∧ x < ((gridFloor m e g + 1 : ℕ) : ℝ) * 2 ^ g ∧
    Chooses rm (gridFloor m e g * 2 ^ g) x (((gridFloor m e g + 1 : ℕ) : ℝ) * 2 ^ g) (gridFloor m e g % 2 = 0)
      ((gridFloor m e g + 1) % 2 = 0) (gridUp rm m e g) ∧
    (offGrid m e g = true ↔ (gridFloor m e g : ℝ) * 2 ^ g < x) := by
  obtain ⟨n, k, hfloor, hup, hoff, hcmp⟩ := grid_division rm m e g
  have hlt : ∀ c : Nat, (c : ℝ) * 2 ^ (g - 1) < x ↔ c * 2 ^ k < 2 * n := fun c => (ht g hg c).1.trans (hcmp c).1
  have hgt : ∀ c : Nat, x < (c : ℝ) * 2 ^ (g - 1) ↔ 2 * n < c * 2 ^ k := fun c => (ht g hg c).2.trans (hcmp c).2
  have hmid : ∀ q : Nat, (q : ℝ) * 2 ^ g + ((q + 1 : ℕ) : ℝ) * 2 ^ g = 2 * (((2 * q + 1 : ℕ) : ℝ) * 2 ^ (g - 1)) := by
    intro q
    rw [unit_eq_two_halves g]
    push_cast
    ring
  rw [hfloor, hup, hoff]
  have hdiv := Nat.div_add_mod n (2 ^ k)
  have hmod := Nat.mod_lt n (Nat.two_pow_pos k)
  set q := n / 2 ^ k
  set r := n % 2 ^ k
  have hlo : (q : ℝ) * 2 ^ g < x ↔ 0 < r := by
    rw [unit_eq_halves, hlt]
    constructor <;> intro h <;> nlinarith
  have hmidlt : (q : ℝ) * 2 ^ g + ((q + 1 : ℕ) : ℝ) * 2 ^ g < 2 * x ↔ 2 ^ k < 2 * r := by
    rw [hmid, mul_lt_mul_iff_right₀ two_pos, hlt]
    constructor <;> intro h <;> nlinarith
  have hmidgt : 2 * x < (q : ℝ) * 2 ^ g + ((q + 1 : ℕ) : ℝ) * 2 ^ g ↔ 2 * r < 2 ^ k := by
    rw [hmid, mul_lt_mul_iff_right₀ two_pos, hgt]
    constructor <;> intro h <;> nlinarith
  have hbelow : (q : ℝ) * 2 ^ g ≤ x := by
    rw [← not_lt, unit_eq_halves, hgt]
    nlinarith
  have habove : x < ((q + 1 : ℕ) : ℝ) * 2 ^ g := by
    rw [unit_eq_halves, hgt]
    nlinarith
  refine ⟨hbelow, habove, ?_, by rw [hlo]; simp [Nat.pos_iff_ne_zero]⟩
  have htie : 2 * x = (q : ℝ) * 2 ^ g + ((q + 1 : ℕ) : ℝ) * 2 ^ g ↔ 2 * r = 2 ^ k := by
    rw [eq_iff_le_not_lt, ← not_lt, hmidlt, hmidgt]
    omega
  cases rm with
  | rtz | rdn => rfl
  | rup => simp [Chooses, roundsUp, hlo]
  | rmm =>
    rw [Chooses, ← not_lt, hmidgt]
    simp [roundsUp]
  | rne =>
    have htie' := eq_comm.trans htie
    simp only [Chooses, hmidlt, hmidgt, htie, htie', roundsUp, Bool.or_eq_true, Bool.and_eq_true, decide_eq_true_eq,
      Bool.or_eq_false_iff, Bool.and_eq_false_iff, decide_eq_false_iff_not]
    omega

theorem chosen_grid (q : Nat) (g : Int) (up : Bool) :
    chosen ((q : ℝ) * 2 ^ g) (((q + 1 : ℕ) : ℝ) * 2 ^ g) up = ((q + if up then 1 else 0 : ℕ) : ℝ) * 2 ^ g := by
  cases up <;> simp [chosen]

/-- A set of numbers that has the grid point `roundToGrid` gives, and none between the neighbours on the grid: that point
is the number rounded to the set. -/
theorem roundToGrid_roundsTo {S E : ℝ → Prop} (hsymm : ∀ w, S (-w) ↔ S w) (hsymm' : ∀ w, E (-w) ↔ E w) {x : ℝ}
    {m : Nat} {e g₀ g : Int} (ht : Tracks x m e g₀) (hg : g₀ ≤ g) (rm : Rm) (neg : Bool)
    (hgap : ∀ w, S w → w ≤ (gridFloor m e g : ℝ) * 2 ^ g ∨ ((gridFloor m e g + 1 : ℕ) : ℝ) * 2 ^ g ≤ w)
    (hS : S ((roundToGrid rm neg m e g : ℝ) * 2 ^ g))
    (hE : roundToGrid rm neg m e g % 2 = 0 → E ((roundToGrid rm neg m e g : ℝ) * 2 ^ g)) :
    RoundsTo S E rm (signed neg x) (signed neg ((roundToGrid rm neg m e g : ℝ) * 2 ^ g)) := by
  refine roundsTo_signed hsymm hsymm' ?_
  rw [roundToGrid_forSign, roundToGrid_eq, ← chosen_grid] at hS hE ⊢
  obtain ⟨hlo, hhi, hc, -⟩ := grid_chooses ht hg (rm.forSign neg)
  refine roundsTo_of_chooses (mul_nonneg (Nat.cast_nonneg _) (two_zpow_pos g).le) hlo hhi hgap hS (fun hup heven => ?_)
    (fun hup heven => ?_) hc
  · rw [hup, chosen, if_neg (by simp)] at hE
    exact hE (by simpa using heven)
  · rw [hup, chosen, if_pos rfl] at hE
    exact hE (by simpa using heven)

/-- Off the grid is what is not rounded to itself. -/
theorem offGrid_iff {x : ℝ} {m : Nat} {e g₀ g : Int} (ht : Tracks x m e g₀) (hg : g₀ ≤ g) (rm : Rm) (neg : Bool) :
    offGrid m e g = true ↔ (roundToGrid rm neg m e g : ℝ) * 2 ^ g ≠ x := by
  obtain ⟨hlo, hhi, hc, hoff⟩ := grid_chooses ht hg (rm.forSign neg)
  rw [roundToGrid_forSign, roundToGrid_eq, ← chosen_grid, hoff]
  cases hup : gridUp (rm.forSign neg) m e g with
  | false => exact ⟨fun h => h.ne, fun h => lt_of_le_of_ne hlo h⟩
  | true =>
    refine ⟨fun _ => hhi.ne', fun _ => lt_of_le_of_ne hlo fun heq => ?_⟩
    rw [heq, hup] at hc
    exact absurd (hc.not_up hhi) nofun

theorem roundToGrid_le (rm : Rm) (neg : Bool) (m : Nat) (e g : Int) :
    gridFloor m e g ≤ roundToGrid rm neg m e g ∧ roundToGrid rm neg m e g ≤ gridFloor m e g + 1 := by
  rw [roundToGrid_forSign, roundToGrid_eq]
  split <;> omega

end Sys2Proof.Machine
end
section
/-! PROOFS. Rounding to an integer, and the integer square root. -/

namespace Sys2Proof.Machine

/-! ### `roundShift` -/

/-- `roundShift` is the quotient, or one more. -/
theorem roundShift_eq (rm : Rm) (neg : Bool) (m k : Nat) :
    roundShift rm neg m k = m / 2 ^ k + if roundsUp rm neg (m / 2 ^ k) (2 * (m % 2 ^ k)) (2 ^ k) then 1 else 0 := rfl

theorem roundShift_nearest_even (neg : Bool) (m k : Nat) :
    2 * m ≤ 2 * (roundShift .rne neg m k * 2 ^ k) + 2 ^ k ∧ 2 * (roundShift .rne neg m k * 2 ^ k) ≤ 2 * m + 2 ^ k ∧
      (2 * (m % 2 ^ k) = 2 ^ k → roundShift .rne neg m k % 2 = 0) := by
  have hdiv := Nat.div_add_mod' m (2 ^ k)
  have hlt := Nat.mod_lt m (Nat.two_pow_pos k)
  simp only [roundShift_eq, roundsUp, Bool.or_eq_true, Bool.and_eq_true, decide_eq_true_eq]
  split
  · rw [Nat.add_mul]
    omega
  · rw [Nat.add_zero]
    omega

theorem roundShift_nearest_away (neg : Bool) (m k : Nat) :
    2 * m < 2 * (roundShift .rmm neg m k * 2 ^ k) + 2 ^ k ∧ 2 * (roundShift .rmm neg m k * 2 ^ k) ≤ 2 * m + 2 ^ k := by
  have hdiv := Nat.div_add_mod' m (2 ^ k)
  have hlt := Nat.mod_lt m (Nat.two_pow_pos k)
  simp only [roundShift_eq, roundsUp, decide_eq_true_eq]
  split
  · rw [Nat.add_mul]
    omega
  · rw [Nat.add_zero]
    omega

/-- Away from zero. -/
theorem roundShift_away (m k : Nat) :
    m ≤ roundShift .rdn true m k * 2 ^ k ∧ roundShift .rdn true m k * 2 ^ k < m + 2 ^ k := by
  have hdiv := Nat.div_add_mod' m (2 ^ k)
  have hlt := Nat.mod_lt m (Nat.two_pow_pos k)
  simp only [roundShift_eq, roundsUp, Bool.true_and, decide_eq_true_eq]
  split
  · rw [Nat.add_mul]
    omega
  · rw [Nat.add_zero]
    omega

/-! ### The integer square root -/

/-- Every bit is kept exactly if the square stays within `n`. -/
theorem isqrtFrom_spec (bits r n : Nat) (hle : r * r ≤ n) (hlt : n < (r + 2 ^ bits) * (r + 2 ^ bits)) :
    isqrtFrom bits r n * isqrtFrom bits r n ≤ n ∧ n < (isqrtFrom bits r n + 1) * (isqrtFrom bits r n + 1) := by
  induction bits generalizing r with
  | zero => exact ⟨hle, hlt⟩
  | succ bits ih =>
    rw [isqrtFrom]
    split
    · exact ih _ ‹_› (by rw [Nat.add_assoc, ← Nat.two_mul, ← Nat.pow_succ']; exact hlt)
    · exact ih _ hle (not_le.1 ‹_›)

theorem isqrt_spec (n : Nat) : isqrt n * isqrt n ≤ n ∧ n < (isqrt n + 1) * (isqrt n + 1) := by
  refine isqrtFrom_spec _ 0 n (Nat.zero_le _) ?_
  rw [Nat.zero_add, ← Nat.pow_add]
  exact Nat.lt_log2_self.trans_le (Nat.pow_le_pow_right two_pos (by omega))

/-- Settles O37: the quotient, or one more, by the mode; and `isqrt_spec`. -/
theorem integerRounding : Obligations.IntegerRounding := by
  refine ⟨fun neg m k => ⟨?_, roundShift_nearest_even neg m k, roundShift_nearest_away neg m k, ?_, ?_, ?_⟩, isqrt_spec⟩
  · have htrunc : roundShift .rtz neg m k = m / 2 ^ k := rfl
    rw [htrunc]
    exact ⟨Nat.div_mul_le_self m _, by rw [Nat.mul_comm]; exact Nat.lt_mul_div_succ m (Nat.two_pow_pos k)⟩
  · rintro rfl
    rfl
  · rintro rfl
    exact roundShift_away m k
  · cases neg <;> rfl

/-! ### Conversions to an integer type -/

theorem signedMag_cast (neg : Bool) (n : Nat) : (signedMag neg n : ℝ) = signed neg ((n : ℝ) * 2 ^ (0 : ℤ)) := by
  cases neg <;> simp [signedMag, signed]

theorem numReal_eq_signed (neg : Bool) (m : Nat) (e : Int) : numReal neg m e = signed neg (m * 2 ^ e) := by
  cases neg <;> simp [numReal, signed]

theorem signed_inj {neg : Bool} {x y : ℝ} : signed neg x = signed neg y ↔ x = y := by cases neg <;> simp [signed]

theorem intTyMin_le_max (k : IntTy) : intTyMin k ≤ intTyMax k := by cases k <;> decide

/-- Rounding to an integer is `roundToGrid` to units of 1. -/
theorem roundToInteger_roundsTo (rm : Rm) (neg : Bool) (m : Nat) (e : Int) :
    RoundsTo (fun y => ∃ n : ℤ, y = n) (fun y => ∃ n : ℤ, y = 2 * n) rm (numReal neg m e)
      (signedMag neg (roundToGrid rm neg m e 0) : ℤ) := by
  rw [numReal_eq_signed, signedMag_cast]
  refine roundToGrid_roundsTo (fun w => ?_) (fun w => ?_) (tracks_self m e 0) le_rfl rm neg ?_ ⟨(roundToGrid rm neg m e 0 : ℕ), by simp⟩ fun heven => ?_
  · exact ⟨fun ⟨n, hn⟩ => ⟨-n, by push_cast; linarith⟩, fun ⟨n, hn⟩ => ⟨-n, by push_cast; linarith⟩⟩
  · exact ⟨fun ⟨n, hn⟩ => ⟨-n, by push_cast; linarith⟩, fun ⟨n, hn⟩ => ⟨-n, by push_cast; linarith⟩⟩
  · rintro w ⟨n, rfl⟩
    simp only [zpow_zero, mul_one]
    rcases le_or_gt n (gridFloor m e 0) with h | h
    · exact .inl (by exact_mod_cast h)
    · exact .inr (by exact_mod_cast h)
  · refine ⟨(roundToGrid rm neg m e 0 / 2 : ℕ), ?_⟩
    have := Nat.div_add_mod (roundToGrid rm neg m e 0) 2
    rw [heven, Nat.add_zero] at this
    rw [zpow_zero, mul_one]
    exact_mod_cast this.symm

/-- Settles O42: the branches of `fpToIntVal`; the rounding is `roundToInteger_roundsTo`. -/
theorem conversionClips : Obligations.ConversionClips := by
  refine ⟨by decide, fun fmt k rm v => ⟨fun signalling h => ?_, fun h => ?_, fun h => ?_, ?_, ?_⟩⟩
  · simp [fpToIntVal, h]
  · simp [fpToIntVal, h]
  · simp [fpToIntVal, h]
  · have hle := intTyMin_le_max k
    unfold fpToIntVal
    cases fpUnpack fmt v with
    | nan signalling => exact ⟨hle, le_rfl⟩
    | inf neg => cases neg <;> simp [hle]
    | num neg m e =>
      dsimp only
      split
      · exact ⟨le_rfl, hle⟩
      · split
        · exact ⟨hle, le_rfl⟩
        · exact ⟨not_lt.1 ‹_›, not_lt.1 ‹_›⟩
  · rintro neg m e r h rfl
    have hmin := intTyMin_le_max k
    refine ⟨roundToInteger_roundsTo rm neg m e, ?_, fun hr => ?_, fun hr => ?_, fun hr hr' => ?_⟩
    · rw [offGrid_iff (tracks_self m e 0) le_rfl rm neg, numReal_eq_signed, signedMag_cast, ne_eq, ne_eq, signed_inj]
    · simp [fpToIntVal, h, hr]
    · simp [fpToIntVal, h, hr, (hmin.trans hr.le).not_gt]
    · simp [fpToIntVal, h, hr.not_gt, hr'.not_gt]

end Sys2Proof.Machine
end
section
/-! PROOFS. The formats: what a magnitude stands for, in the order of the numbers, and which numbers a format has. -/

namespace Sys2Proof.Machine

/-! ### Patterns and magnitudes -/

/-- The bits below the sign of an infinity: the numbers have less, the NaNs more. -/
def infMag (t : Fmt) : Nat := (2 ^ t.expBits - 1) * 2 ^ t.fracBits

/-- How far the exponent of a magnitude is above that of the subnormal numbers. -/
def magShift (t : Fmt) (mag : Nat) : Nat := mag / 2 ^ t.fracBits - 1

/-- The significand of a magnitude, with the bit the pattern leaves out. -/
def magSignificand (t : Fmt) (mag : Nat) : Nat := mag - magShift t mag * 2 ^ t.fracBits

/-- The number a magnitude stands for; the magnitudes of the infinity and the NaNs go on in the same way. -/
noncomputable def magValue (t : Fmt) (mag : Nat) : ℝ := magSignificand t mag * 2 ^ (fmtQmin t + magShift t mag)

section Patterns

variable {t : Fmt}

theorem two_pow_width (t : Fmt) : 2 ^ (t.width - 1) = 2 ^ t.expBits * 2 ^ t.fracBits := by cases t <;> rfl

theorem infMag_lt (t : Fmt) : infMag t < 2 ^ (t.width - 1) := by cases t <;> decide

theorem two_pow_succ_frac (t : Fmt) : 2 ^ fmtPrecision t = 2 * 2 ^ t.fracBits := Nat.pow_succ'

theorem even_two_pow_frac (t : Fmt) : 2 ^ t.fracBits % 2 = 0 := by cases t <;> decide

theorem fpPack_sign_magnitude (v : FpBits t) : fpPack t (fpSign t v) (fpMagnitude t v) = v := by
  apply BitVec.eq_of_toNat_eq
  rw [fpPack_toNat t _ (fpMagnitude_lt t v), fpMagnitude]
  have hdiv := Nat.div_add_mod' v.toNat (2 ^ (t.width - 1))
  have hlt : v.toNat / 2 ^ (t.width - 1) < 2 := by
    rw [Nat.div_lt_iff_lt_mul (Nat.two_pow_pos _), ← Nat.pow_succ', Nat.succ_eq_add_one, Nat.sub_add_cancel (fmt_width_pos t)]
    exact v.isLt
  have hsign : fpSign t v = decide (v.toNat / 2 ^ (t.width - 1) = 1) := by
    rw [fpSign, BitVec.getLsbD, Nat.testBit_eq_decide_div_mod_eq, Nat.mod_eq_of_lt hlt]
  rw [hsign]
  interval_cases h : v.toNat / 2 ^ (t.width - 1)
  · simpa using hdiv
  · simpa using hdiv

/-- A pattern is its sign and its magnitude. -/
theorem fpBits_ext {v w : FpBits t} (hs : fpSign t v = fpSign t w) (hm : fpMagnitude t v = fpMagnitude t w) : v = w := by
  rw [← fpPack_sign_magnitude v, ← fpPack_sign_magnitude w, hs, hm]

theorem fpUnpack_of_lt {v : FpBits t} (h : fpMagnitude t v < infMag t) :
    fpUnpack t v = .num (fpSign t v) (magSignificand t (fpMagnitude t v)) (fmtQmin t + magShift t (fpMagnitude t v)) := by
  generalize hmag : fpMagnitude t v = mag at h
  have hlt : mag / 2 ^ t.fracBits < 2 ^ t.expBits - 1 := (Nat.div_lt_iff_lt_mul (Nat.two_pow_pos _)).2 h
  have hdiv := Nat.div_add_mod' mag (2 ^ t.fracBits)
  rw [fpUnpack, hmag]
  rw [if_neg hlt.ne]
  rw [magSignificand, magShift]
  split
  · rename_i h0
    have hsmall : mag < 2 ^ t.fracBits := (Nat.div_eq_zero_iff_lt (Nat.two_pow_pos _)).1 h0
    simp [h0, Nat.mod_eq_of_lt hsmall]
  · rename_i h0
    have hmul : (mag / 2 ^ t.fracBits - 1) * 2 ^ t.fracBits + 2 ^ t.fracBits = mag / 2 ^ t.fracBits * 2 ^ t.fracBits := by
      rw [← Nat.succ_mul, Nat.succ_eq_add_one, Nat.sub_add_cancel (Nat.pos_of_ne_zero h0)]
    have hsig : 2 ^ t.fracBits + mag % 2 ^ t.fracBits = mag - (mag / 2 ^ t.fracBits - 1) * 2 ^ t.fracBits :=
      Nat.eq_sub_of_add_eq (by linarith)
    rw [hsig, Nat.cast_sub (Nat.pos_of_ne_zero h0), Nat.cast_one]

theorem fpUnpack_of_eq {v : FpBits t} (h : fpMagnitude t v = infMag t) : fpUnpack t v = .inf (fpSign t v) := by
  simp [fpUnpack, h, infMag]

theorem fpUnpack_of_gt {v : FpBits t} (h : infMag t < fpMagnitude t v) :
    fpUnpack t v = .nan (decide (fpMagnitude t v % 2 ^ t.fracBits < 2 ^ (t.fracBits - 1))) := by
  have hlt := fpMagnitude_lt t v
  rw [two_pow_width] at hlt
  have he : fpMagnitude t v / 2 ^ t.fracBits = 2 ^ t.expBits - 1 := by
    rw [Nat.div_eq_iff (Nat.two_pow_pos _)]
    have : 2 ^ t.expBits * 2 ^ t.fracBits = infMag t + 2 ^ t.fracBits := by
      rw [infMag, Nat.sub_mul, Nat.one_mul, Nat.sub_add_cancel (Nat.le_mul_of_pos_left _ (Nat.two_pow_pos _))]
    rw [infMag] at h this
    omega
  have hr : fpMagnitude t v % 2 ^ t.fracBits ≠ 0 := by
    have := Nat.div_add_mod' (fpMagnitude t v) (2 ^ t.fracBits)
    rw [he] at this
    rw [infMag] at h
    omega
  simp [fpUnpack, he, hr]

/-! ### The three kinds of patterns -/

theorem fpUnpack_num_iff {v : FpBits t} {neg : Bool} {m : Nat} {e : Int} :
    fpUnpack t v = .num neg m e ↔ fpMagnitude t v < infMag t ∧ neg = fpSign t v ∧
      m = magSignificand t (fpMagnitude t v) ∧ e = fmtQmin t + magShift t (fpMagnitude t v) := by
  rcases lt_trichotomy (fpMagnitude t v) (infMag t) with h | h | h
  · rw [fpUnpack_of_lt h]
    simp only [FpVal.num.injEq, h, true_and, eq_comm]
  · simp [fpUnpack_of_eq h, h]
  · simp [fpUnpack_of_gt h, h.not_gt]

theorem fpUnpack_inf_iff {v : FpBits t} {neg : Bool} :
    fpUnpack t v = .inf neg ↔ fpMagnitude t v = infMag t ∧ neg = fpSign t v := by
  rcases lt_trichotomy (fpMagnitude t v) (infMag t) with h | h | h
  · simp [fpUnpack_of_lt h, h.ne]
  · simp [fpUnpack_of_eq h, h, eq_comm]
  · simp [fpUnpack_of_gt h, h.ne']

theorem fpIsNaN_iff {v : FpBits t} : fpIsNaN t v = true ↔ infMag t < fpMagnitude t v := by
  rcases lt_trichotomy (fpMagnitude t v) (infMag t) with h | h | h
  · simp [fpIsNaN, fpUnpack_of_lt h, h.le]
  · simp [fpIsNaN, fpUnpack_of_eq h, h]
  · simp [fpIsNaN, fpUnpack_of_gt h, h]

theorem fpIsNaN_eq_false_iff {v : FpBits t} : fpIsNaN t v = false ↔ fpMagnitude t v ≤ infMag t := by
  rw [← Bool.not_eq_true, fpIsNaN_iff, not_lt]

theorem isInf_iff {v : FpBits t} : IsInf t v ↔ fpMagnitude t v = infMag t := by
  simp [IsInf, fpUnpack_inf_iff]

theorem isNumber_iff {v : FpBits t} {x : ℝ} :
    IsNumber t v x ↔ fpMagnitude t v < infMag t ∧ x = signed (fpSign t v) (magValue t (fpMagnitude t v)) := by
  constructor
  · rintro ⟨neg, m, e, h, rfl⟩
    obtain ⟨hlt, rfl, rfl, rfl⟩ := fpUnpack_num_iff.1 h
    exact ⟨hlt, numReal_eq_signed _ _ _⟩
  · rintro ⟨hlt, rfl⟩
    exact ⟨_, _, _, fpUnpack_of_lt hlt, (numReal_eq_signed _ _ _).symm⟩

/-! ### The order of the magnitudes -/

/-- The magnitude of `r` units at the exponent `d` above the subnormal numbers, the next power of two included. -/
theorem magValue_grid {d r : Nat} (hr : r ≤ 2 * 2 ^ t.fracBits) (hd : d = 0 ∨ 2 ^ t.fracBits ≤ r) :
    magValue t (d * 2 ^ t.fracBits + r) = r * 2 ^ (fmtQmin t + d) := by
  have hpos := Nat.two_pow_pos t.fracBits
  rcases hr.eq_or_lt with rfl | hlt
  · have hshift : magShift t (d * 2 ^ t.fracBits + 2 * 2 ^ t.fracBits) = d + 1 := by
      rw [magShift, ← Nat.add_mul, Nat.mul_div_cancel _ hpos]
      omega
    rw [magValue, magSignificand, hshift, ← Nat.add_mul, ← Nat.sub_mul, show d + 2 - (d + 1) = 1 by omega]
    rw [show (fmtQmin t + ((d + 1 : ℕ) : ℤ)) = fmtQmin t + d + 1 by push_cast; ring, zpow_add_one₀ two_ne_zero]
    push_cast
    ring
  · have hshift : magShift t (d * 2 ^ t.fracBits + r) = d := by
      rw [magShift, Nat.add_comm, Nat.add_mul_div_right _ _ hpos]
      rcases hd with rfl | hd
      · have : r / 2 ^ t.fracBits < 2 := (Nat.div_lt_iff_lt_mul hpos).2 hlt
        omega
      · have : r / 2 ^ t.fracBits = 1 := (Nat.div_eq_iff hpos).2 (by omega)
        omega
    rw [magValue, magSignificand, hshift, Nat.add_sub_cancel_left]

/-- A magnitude as units at an exponent, less than the next power of two. -/
theorem mag_eq_grid (t : Fmt) (mag : Nat) :
    mag = magShift t mag * 2 ^ t.fracBits + magSignificand t mag ∧ magSignificand t mag < 2 * 2 ^ t.fracBits ∧
      (magShift t mag = 0 ∨ 2 ^ t.fracBits ≤ magSignificand t mag) := by
  have hdiv := Nat.div_add_mod' mag (2 ^ t.fracBits)
  have hlt := Nat.mod_lt mag (Nat.two_pow_pos t.fracBits)
  rw [magSignificand, magShift]
  rcases Nat.eq_zero_or_pos (mag / 2 ^ t.fracBits) with h | h
  · rw [h] at hdiv ⊢
    omega
  · have : (mag / 2 ^ t.fracBits - 1) * 2 ^ t.fracBits + 2 ^ t.fracBits = mag / 2 ^ t.fracBits * 2 ^ t.fracBits := by
      rw [← Nat.succ_mul, Nat.succ_eq_add_one, Nat.sub_add_cancel h]
    omega

theorem magValue_strictMono (t : Fmt) : StrictMono (magValue t) := by
  refine strictMono_nat_of_lt_succ fun mag => ?_
  obtain ⟨hmag, hlt, hd⟩ := mag_eq_grid t mag
  have hvalue : magValue t mag = magSignificand t mag * 2 ^ (fmtQmin t + magShift t mag) := rfl
  have hnext := magValue_grid (t := t) (d := magShift t mag) (r := magSignificand t mag + 1) hlt (hd.imp_right (by omega))
  rw [← Nat.add_assoc, ← hmag] at hnext
  rw [hnext, hvalue]
  exact mul_lt_mul_of_pos_right (by exact_mod_cast Nat.lt_succ_self _) (two_zpow_pos _)

theorem magValue_zero (t : Fmt) : magValue t 0 = 0 := by simp [magValue, magSignificand]

theorem magValue_nonneg (t : Fmt) (mag : Nat) : 0 ≤ magValue t mag :=
  magValue_zero t ▸ (magValue_strictMono t).monotone (Nat.zero_le mag)

theorem fmtPrecision_pos (t : Fmt) : 0 < t.fracBits := by cases t <;> decide

/-- The exponents run from `emin` to `emax`. -/
theorem fmtQmin_add (t : Fmt) : fmtQmin t + ((2 ^ t.expBits - 3 : ℕ) : ℤ) = fmtEmax t - t.fracBits := by
  cases t <;> decide

theorem infMag_eq_grid (t : Fmt) : infMag t = (2 ^ t.expBits - 3) * 2 ^ t.fracBits + 2 * 2 ^ t.fracBits := by
  cases t <;> decide

theorem magValue_infMag (t : Fmt) : magValue t (infMag t) = 2 ^ (fmtEmax t + 1) := by
  rw [infMag_eq_grid, magValue_grid le_rfl (.inr (by omega)), fmtQmin_add]
  push_cast
  rw [← zpow_natCast, ← zpow_one_add₀ two_ne_zero, ← zpow_add₀ two_ne_zero]
  congr 1
  omega

theorem largestNumber_eq (t : Fmt) : largestNumber t = magValue t (infMag t - 1) := by
  have hpos := Nat.two_pow_pos t.fracBits
  have hmag : infMag t - 1 = (2 ^ t.expBits - 3) * 2 ^ t.fracBits + (2 * 2 ^ t.fracBits - 1) := by
    rw [infMag_eq_grid, Nat.add_sub_assoc (by omega)]
  rw [hmag, magValue_grid (by omega) (.inr (by omega)), fmtQmin_add, largestNumber, Nat.cast_sub (by omega)]
  push_cast
  rw [fmtPrecision, pow_succ']

/-! ### The numbers of a format -/

theorem isNumber_pack {neg : Bool} {mag : Nat} (h : mag < infMag t) :
    IsNumber t (fpPack t neg mag) (signed neg (magValue t mag)) := by
  have hlt := h.trans (infMag_lt t)
  rw [isNumber_iff, fpMagnitude_pack t neg hlt, fpSign_pack t neg hlt]
  exact ⟨h, rfl⟩

theorem signed_of_abs {y v : ℝ} (h : |y| = v) : y = signed (decide (y < 0)) v := by
  rw [← h]
  by_cases hy : y < 0
  · simp [signed, hy, abs_of_neg hy]
  · simp [signed, hy, abs_of_nonneg (not_lt.1 hy)]

theorem representable_iff {y : ℝ} : Representable t y ↔ ∃ mag < infMag t, |y| = magValue t mag := by
  constructor
  · rintro ⟨v, hv⟩
    obtain ⟨hlt, rfl⟩ := isNumber_iff.1 hv
    exact ⟨_, hlt, by rw [abs_signed, abs_of_nonneg (magValue_nonneg _ _)]⟩
  · rintro ⟨mag, hlt, hy⟩
    rw [signed_of_abs hy]
    exact ⟨_, isNumber_pack hlt⟩

theorem evenInFormat_iff {y : ℝ} : EvenInFormat t y ↔ ∃ mag < infMag t, |y| = magValue t mag ∧ mag % 2 = 0 := by
  constructor
  · rintro ⟨v, hv, heven⟩
    obtain ⟨hlt, rfl⟩ := isNumber_iff.1 hv
    exact ⟨_, hlt, by rw [abs_signed, abs_of_nonneg (magValue_nonneg _ _)], heven⟩
  · rintro ⟨mag, hlt, hy, heven⟩
    rw [signed_of_abs hy]
    exact ⟨_, isNumber_pack hlt, by rwa [fpMagnitude_pack t _ (hlt.trans (infMag_lt t))]⟩

/-- The numbers of a format are units of `2^qmin` or more, fewer than `2^p`. -/
theorem magValue_eq_units (t : Fmt) (mag : Nat) : ∃ (n : Nat) (k : Int), n < 2 ^ fmtPrecision t ∧ fmtQmin t ≤ k ∧
    magValue t mag = n * 2 ^ k :=
  ⟨_, _, two_pow_succ_frac t ▸ (mag_eq_grid t mag).2.1, by omega, rfl⟩

end Patterns

end Sys2Proof.Machine
end
section
/-! PROOFS. `fpRoundNonzero` is a number rounded once. -/

namespace Sys2Proof.Machine

/-! ### Numbers of units -/

/-- Numbers of units that are multiples of the grid's, or too few for their unit to reach its neighbours, are not between
these. -/
theorem units_gap {n q F : Nat} {k g : Int} (h : g ≤ k ∨ (n ≤ 2 * F ∧ F ≤ q)) :
    (n : ℝ) * 2 ^ k ≤ q * 2 ^ g ∨ ((q + 1 : ℕ) : ℝ) * 2 ^ g ≤ n * 2 ^ k := by
  rcases le_or_gt g k with hk | hk
  · have hn : (n : ℝ) * 2 ^ k = ((n * 2 ^ (k - g).toNat : ℕ) : ℝ) * 2 ^ g := by
      rw [two_zpow_add_toNat hk, Nat.cast_mul]
      ring
    rw [hn, mul_le_mul_iff_left₀ (two_zpow_pos g), mul_le_mul_iff_left₀ (two_zpow_pos g), Nat.cast_le, Nat.cast_le]
    omega
  · obtain ⟨hn, hq⟩ := h.resolve_left (by omega)
    left
    have hpow : 2 * (2 : ℝ) ^ k ≤ 2 ^ g := by
      rw [← zpow_one_add₀ two_ne_zero]
      exact zpow_le_zpow_right₀ one_le_two (by omega)
    have hn' : (n : ℝ) ≤ 2 * q := by exact_mod_cast hn.trans (Nat.mul_le_mul_left 2 hq)
    calc (n : ℝ) * 2 ^ k ≤ 2 * q * 2 ^ k := mul_le_mul_of_nonneg_right hn' (two_zpow_pos k).le
      _ = q * (2 * 2 ^ k) := by ring
      _ ≤ q * 2 ^ g := mul_le_mul_of_nonneg_left hpow (Nat.cast_nonneg q)

/-- A set whose magnitudes are such numbers of units has none between the neighbours. -/
theorem gap_of_units {w : ℝ} {n q F : Nat} {k g : Int} (hw : |w| = n * 2 ^ k) (h : g ≤ k ∨ (n ≤ 2 * F ∧ F ≤ q)) :
    w ≤ (q : ℝ) * 2 ^ g ∨ ((q + 1 : ℕ) : ℝ) * 2 ^ g ≤ w := by
  have hgap := units_gap h
  rw [← hw] at hgap
  rcases le_or_gt w 0 with h0 | h0
  · exact .inl (h0.trans (mul_nonneg (Nat.cast_nonneg q) (two_zpow_pos g).le))
  · rwa [abs_of_pos h0] at hgap

theorem abs_units (n : Nat) (k : Int) : |(n : ℝ) * 2 ^ k| = n * 2 ^ k :=
  abs_of_nonneg (mul_nonneg (Nat.cast_nonneg n) (two_zpow_pos k).le)

/-- The next power of two, as half as many units twice as large. -/
theorem double_units (F : Nat) (g : Int) : ((2 * F : ℕ) : ℝ) * 2 ^ g = F * 2 ^ (g + 1) := by
  rw [zpow_add_one₀ two_ne_zero]
  push_cast
  ring

section Precision

variable {t : Fmt} {r : Nat} {g : Int}

theorem ofPrecision_units (hr : r ≤ 2 * 2 ^ t.fracBits) : OfPrecision (fmtPrecision t) ((r : ℝ) * 2 ^ g) := by
  have hp := two_pow_succ_frac t
  have hpos := Nat.two_pow_pos t.fracBits
  rcases hr.eq_or_lt with rfl | hr
  · exact ⟨2 ^ t.fracBits, g + 1, by omega, by rw [abs_units, double_units]⟩
  · exact ⟨r, g, by omega, abs_units r g⟩

theorem evenOfPrecision_units (hlo : 2 ^ t.fracBits ≤ r) (hr : r ≤ 2 * 2 ^ t.fracBits) (heven : r % 2 = 0) :
    EvenOfPrecision (fmtPrecision t) ((r : ℝ) * 2 ^ g) := by
  have hp := two_pow_succ_frac t
  have hp' : 2 ^ (fmtPrecision t - 1) = 2 ^ t.fracBits := rfl
  have hpos := Nat.two_pow_pos t.fracBits
  rcases hr.eq_or_lt with rfl | hr
  · exact ⟨2 ^ t.fracBits, g + 1, by omega, by omega, even_two_pow_frac t, by rw [abs_units, double_units]⟩
  · exact ⟨r, g, by omega, by omega, heven, abs_units r g⟩

/-- A number of units on the format's grid, below the overflow, as a magnitude of the format. -/
theorem units_representable {d : Nat} (hg : g = fmtQmin t + d) (hr : r ≤ 2 * 2 ^ t.fracBits)
    (hd : d = 0 ∨ 2 ^ t.fracBits ≤ r) (hlt : (r : ℝ) * 2 ^ g < 2 ^ (fmtEmax t + 1)) :
    d * 2 ^ t.fracBits + r < infMag t ∧ magValue t (d * 2 ^ t.fracBits + r) = r * 2 ^ g := by
  have hvalue := magValue_grid hr hd
  rw [← hg] at hvalue
  exact ⟨(magValue_strictMono t).lt_iff_lt.1 (by rwa [hvalue, magValue_infMag]), hvalue⟩

theorem largestNumber_lt (t : Fmt) : largestNumber t < 2 ^ (fmtEmax t + 1) := by
  rw [largestNumber_eq, ← magValue_infMag]
  exact magValue_strictMono t (Nat.sub_lt (by cases t <;> decide) one_pos)

end Precision

/-! ### The leading digit -/

section Lead

variable {t : Fmt} {m : Nat} {e : Int}

/-- The unit of the last digit of the precision, for a number that begins where `m * 2^e` does. -/
def leadUnit (t : Fmt) (m : Nat) (e : Int) : Int := e + Nat.log2 m - t.fracBits

theorem lead_bounds (hm : m ≠ 0) :
    ((2 ^ t.fracBits : ℕ) : ℝ) * 2 ^ leadUnit t m e ≤ m * 2 ^ e ∧
      (m : ℝ) * 2 ^ e < ((2 * 2 ^ t.fracBits : ℕ) : ℝ) * 2 ^ leadUnit t m e := by
  have hunit : ((2 ^ t.fracBits : ℕ) : ℝ) * 2 ^ leadUnit t m e = ((2 ^ Nat.log2 m : ℕ) : ℝ) * 2 ^ e := by
    push_cast
    rw [← zpow_natCast, ← zpow_natCast, ← zpow_add₀ two_ne_zero, ← zpow_add₀ two_ne_zero, leadUnit]
    congr 1
    omega
  have hlt : m < 2 * 2 ^ Nat.log2 m := by
    rw [← Nat.pow_succ']
    exact Nat.lt_log2_self
  rw [Nat.cast_mul, mul_assoc, hunit, ← mul_assoc, ← Nat.cast_mul, mul_le_mul_iff_left₀ (two_zpow_pos e),
    mul_lt_mul_iff_left₀ (two_zpow_pos e), Nat.cast_le, Nat.cast_lt]
  exact ⟨Nat.log2_self_le hm, hlt⟩

/-- The number of units has the precision's length on the leading grid, and is no longer on a coarser one. -/
theorem gridFloor_lead (hm : m ≠ 0) : 2 ^ t.fracBits ≤ gridFloor m e (leadUnit t m e) ∧
    ∀ g, leadUnit t m e ≤ g → gridFloor m e g < 2 * 2 ^ t.fracBits := by
  obtain ⟨hlo, hhi⟩ := lead_bounds (t := t) (e := e) hm
  refine ⟨?_, fun g hg => ?_⟩
  · obtain ⟨-, habove, -⟩ := grid_chooses (tracks_self m e _) (le_refl (leadUnit t m e)) .rtz
    have := (mul_lt_mul_iff_left₀ (two_zpow_pos _)).1 (hlo.trans_lt habove)
    exact Nat.lt_succ_iff.1 (by exact_mod_cast this)
  · obtain ⟨hbelow, -⟩ := grid_chooses (tracks_self m e g) le_rfl .rtz
    have hunit := mul_le_mul_of_nonneg_left (zpow_le_zpow_right₀ (one_le_two (α := ℝ)) hg)
      (Nat.cast_nonneg (2 * 2 ^ t.fracBits))
    have := (mul_lt_mul_iff_left₀ (two_zpow_pos _)).1 ((hbelow.trans_lt hhi).trans_le hunit)
    exact_mod_cast this

/-- A number of as many units as the precision has, whose leading digit stands for `2^l`. -/
def LeadsAt (t : Fmt) (l : Int) (v : ℝ) : Prop :=
  ∃ n : Nat, 2 ^ t.fracBits ≤ n ∧ n < 2 * 2 ^ t.fracBits ∧ v = n * 2 ^ (l - t.fracBits)

theorem frac_units (t : Fmt) (l : Int) : ((2 ^ t.fracBits : ℕ) : ℝ) * 2 ^ (l - t.fracBits) = 2 ^ l := by
  push_cast
  rw [← zpow_natCast, ← zpow_add₀ two_ne_zero]
  congr 1
  omega

theorem LeadsAt.bounds {l : Int} {v : ℝ} (h : LeadsAt t l v) : 2 ^ l ≤ v ∧ v < 2 ^ (l + 1) := by
  obtain ⟨n, hlo, hhi, rfl⟩ := h
  have hpos := two_zpow_pos (l - t.fracBits)
  have htop : ((2 * 2 ^ t.fracBits : ℕ) : ℝ) * 2 ^ (l - t.fracBits) = 2 ^ (l + 1) := by
    rw [double_units, show l - t.fracBits + 1 = l + 1 - t.fracBits by ring, frac_units]
  rw [← htop, ← frac_units t l, mul_le_mul_iff_left₀ hpos, mul_lt_mul_iff_left₀ hpos, Nat.cast_le, Nat.cast_lt]
  exact ⟨hlo, hhi⟩

theorem LeadsAt.lt_two_zpow_iff {l k : Int} {v : ℝ} (h : LeadsAt t l v) : v < 2 ^ k ↔ l < k := by
  obtain ⟨hlo, hhi⟩ := h.bounds
  refine ⟨fun hv => (zpow_lt_zpow_iff_right₀ (one_lt_two (α := ℝ))).1 (hlo.trans_lt hv), fun hl => ?_⟩
  exact hhi.trans_le (zpow_le_zpow_right₀ one_le_two (by omega))

theorem LeadsAt.largestNumber_lt_iff {l : Int} {v : ℝ} (h : LeadsAt t l v) : largestNumber t < v ↔ fmtEmax t < l := by
  constructor
  · intro hlt
    by_contra hle
    refine absurd hlt (not_lt.2 ?_)
    obtain ⟨n, -, hhi, rfl⟩ := h
    have hn : (n : ℝ) ≤ 2 ^ fmtPrecision t - 1 := by
      rw [le_sub_iff_add_le]
      exact_mod_cast two_pow_succ_frac t ▸ hhi
    exact mul_le_mul hn (zpow_le_zpow_right₀ one_le_two (by omega)) (two_zpow_pos _).le ((Nat.cast_nonneg n).trans hn)
  · intro hlt
    exact ((largestNumber_lt t).trans_le (zpow_le_zpow_right₀ one_le_two (by omega))).trans_le h.bounds.1

end Lead

/-- The numbers up to the second power of two above the subnormal ones do not overflow. -/
theorem subnormal_units_lt (t : Fmt) : ((2 * 2 ^ t.fracBits : ℕ) : ℝ) * 2 ^ fmtQmin t < 2 ^ (fmtEmax t + 1) := by
  rw [double_units, fmtQmin, show fmtEmin t - t.fracBits + 1 = fmtEmin t + 1 - t.fracBits by ring, frac_units]
  exact zpow_lt_zpow_right₀ one_lt_two (by cases t <;> decide)

/-! ### Overflow -/

theorem fpUnpack_fpInf (t : Fmt) (neg : Bool) : fpUnpack t (fpInf t neg) = .inf neg :=
  fpUnpack_inf_iff.2 ⟨fpMagnitude_pack t neg (infMag_lt t), (fpSign_pack t neg (infMag_lt t)).symm⟩

theorem overflowed_fpOverflow (t : Fmt) (rm : Rm) (neg : Bool) : Overflowed t rm neg (fpOverflow t rm neg) := by
  have hinf := fpUnpack_fpInf t neg
  have hmax : IsNumber t (fpMaxFinite t neg) ((if neg then -1 else 1) * largestNumber t) := by
    have h := isNumber_pack (t := t) (neg := neg) (mag := infMag t - 1) (Nat.sub_lt (by cases t <;> decide) one_pos)
    rw [← largestNumber_eq] at h
    have hsigned : (if neg then -1 else 1) * largestNumber t = signed neg (largestNumber t) := by
      cases neg <;> simp [signed]
    rw [hsigned]
    exact h
  refine ⟨rfl, ?_⟩
  cases rm with
  | rne | rmm => cases neg <;> exact hinf
  | rtz => cases neg <;> exact hmax
  | rdn =>
    cases neg
    · exact hmax
    · exact hinf
  | rup =>
    cases neg
    · exact hinf
    · exact hmax

/-! ### Rounded once -/

section Rounded

variable {t : Fmt} {m : Nat} {e : Int} {x : ℝ}

/-- What `roundToGrid` gives has the precision's length on the leading grid, and is no longer on a coarser one. -/
theorem roundToGrid_lead (hm : m ≠ 0) (rm : Rm) (neg : Bool) :
    2 ^ t.fracBits ≤ roundToGrid rm neg m e (leadUnit t m e) ∧
      ∀ g, leadUnit t m e ≤ g → roundToGrid rm neg m e g ≤ 2 * 2 ^ t.fracBits := by
  obtain ⟨hlead, hlong⟩ := gridFloor_lead (t := t) (e := e) hm
  exact ⟨hlead.trans (roundToGrid_le rm neg m e _).1,
    fun g hg => (roundToGrid_le rm neg m e g).2.trans (hlong g hg)⟩

/-- The place of the leading digit once rounded: one higher if that is the next power of two. -/
def roundedLead (t : Fmt) (rm : Rm) (neg : Bool) (m : Nat) (e : Int) : Int :=
  if roundToGrid rm neg m e (leadUnit t m e) = 2 ^ fmtPrecision t then e + Nat.log2 m + 1 else e + Nat.log2 m

theorem leadsAt_roundedLead (hm : m ≠ 0) (rm : Rm) (neg : Bool) :
    LeadsAt t (roundedLead t rm neg m e) (roundToGrid rm neg m e (leadUnit t m e) * 2 ^ leadUnit t m e) := by
  have hpos := Nat.two_pow_pos t.fracBits
  obtain ⟨hlo, hhi⟩ := roundToGrid_lead (t := t) (e := e) hm rm neg
  have htop := hhi _ le_rfl
  rw [roundedLead, two_pow_succ_frac]
  split
  · rename_i heq
    refine ⟨2 ^ t.fracBits, le_rfl, by omega, ?_⟩
    rw [heq, double_units, leadUnit]
    congr 2
    omega
  · exact ⟨_, hlo, by omega, rfl⟩

/-- `fpRoundNonzero` by the grid it rounds to and the place of the leading digit. -/
theorem fpRoundNonzero_eq (t : Fmt) (rm : Rm) (neg : Bool) (m : Nat) (e : Int) {g : Int} {d : Nat}
    (hg : max (leadUnit t m e) (fmtQmin t) = g) (hd : (g - fmtQmin t).toNat = d) :
    fpRoundNonzero t rm neg m e =
      if fmtEmax t < roundedLead t rm neg m e then fpOverflow t rm neg
      else (fpPack t neg (d * 2 ^ t.fracBits + roundToGrid rm neg m e g), flagIf (offGrid m e g) flagNX |||
        flagIf (decide (roundedLead t rm neg m e < fmtEmin t) && offGrid m e g) flagUF) := by
  subst hd hg
  rfl

/-- The leading grid rounds to the precision, the exponent unbounded. -/
theorem roundsTo_ofPrecision (hm : m ≠ 0) (ht : Tracks x m e (leadUnit t m e)) (rm : Rm) (neg : Bool) :
    RoundsTo (OfPrecision (fmtPrecision t)) (EvenOfPrecision (fmtPrecision t)) rm (signed neg x)
      (signed neg ((roundToGrid rm neg m e (leadUnit t m e) : ℝ) * 2 ^ leadUnit t m e)) := by
  obtain ⟨hlo, hhi⟩ := roundToGrid_lead (t := t) (e := e) hm rm neg
  refine roundToGrid_roundsTo (by simp [OfPrecision]) (by simp [EvenOfPrecision]) ht le_rfl rm neg ?_
    (ofPrecision_units (hhi _ le_rfl)) (evenOfPrecision_units hlo (hhi _ le_rfl))
  rintro w ⟨n, k, hn, hw⟩
  rw [two_pow_succ_frac] at hn
  exact gap_of_units hw (.inr ⟨hn.le, (gridFloor_lead hm).1⟩)

/-- The format's grid, the leading one or the subnormal numbers', rounds to the format where nothing overflows. -/
theorem roundsTo_representable (hm : m ≠ 0) (ht : Tracks x m e (leadUnit t m e)) (rm : Rm) (neg : Bool) {g : Int} {d : Nat}
    (hg : leadUnit t m e ≤ g) (hd : g = fmtQmin t + d) (hgrid : g = leadUnit t m e ∨ d = 0)
    (hsmall : (roundToGrid rm neg m e g : ℝ) * 2 ^ g < 2 ^ (fmtEmax t + 1)) :
    IsNumber t (fpPack t neg (d * 2 ^ t.fracBits + roundToGrid rm neg m e g))
        (signed neg ((roundToGrid rm neg m e g : ℝ) * 2 ^ g)) ∧
      fpSign t (fpPack t neg (d * 2 ^ t.fracBits + roundToGrid rm neg m e g)) = neg ∧
      RoundsTo (Representable t) (EvenInFormat t) rm (signed neg x)
        (signed neg ((roundToGrid rm neg m e g : ℝ) * 2 ^ g)) := by
  obtain ⟨hlo, hhi⟩ := roundToGrid_lead (t := t) (e := e) hm rm neg
  have hlong : d = 0 ∨ 2 ^ t.fracBits ≤ roundToGrid rm neg m e g := hgrid.symm.imp_right fun h => by rw [h]; exact hlo
  obtain ⟨hmag, hvalue⟩ := units_representable hd (hhi g hg) hlong hsmall
  have habs := (abs_units (roundToGrid rm neg m e g) g).trans hvalue.symm
  refine ⟨hvalue ▸ isNumber_pack hmag, fpSign_pack t neg (hmag.trans (infMag_lt t)),
    roundToGrid_roundsTo (by simp [representable_iff]) (by simp [evenInFormat_iff]) ht hg rm neg (fun w hw => ?_)
      (representable_iff.2 ⟨_, hmag, habs⟩) fun heven => evenInFormat_iff.2 ⟨_, hmag, habs, ?_⟩⟩
  · obtain ⟨mag, -, hw⟩ := representable_iff.1 hw
    obtain ⟨n, k, hn, hk, hunits⟩ := magValue_eq_units t mag
    rw [two_pow_succ_frac] at hn
    refine gap_of_units (F := 2 ^ t.fracBits) (hw.trans hunits) (hgrid.symm.imp (fun h => by omega) fun h => ?_)
    rw [h]
    exact ⟨hn.le, (gridFloor_lead hm).1⟩
  · rw [Nat.add_mod, Nat.mul_mod, even_two_pow_frac, heven]
    simp

/-- A positive number is `RoundedOnce` by the significand and exponent it lies among the grids as. -/
theorem fpRoundNonzero_roundedOnce (hm : m ≠ 0) (hx : 0 < x) (ht : Tracks x m e (leadUnit t m e)) (rm : Rm) (neg : Bool) :
    RoundedOnce t rm (signed neg x) (fpRoundNonzero t rm neg m e) := by
  have hsign : decide (signed neg x < 0) = neg := by cases neg <;> simp [signed, hx, hx.le]
  have hleads := leadsAt_roundedLead (t := t) (e := e) hm rm neg
  obtain ⟨g, hg⟩ : ∃ g, max (leadUnit t m e) (fmtQmin t) = g := ⟨_, rfl⟩
  obtain ⟨d, hd, hd'⟩ : ∃ d : Nat, g = fmtQmin t + d ∧ (g - fmtQmin t).toNat = d := ⟨_, by omega, rfl⟩
  have hgU : leadUnit t m e ≤ g := hg ▸ le_max_left _ _
  have hgrid : g = leadUnit t m e ∨ d = 0 := by omega
  refine ⟨_, roundsTo_ofPrecision hm ht rm neg, ?_⟩
  rw [fpRoundNonzero_eq t rm neg m e hg hd', abs_signed, abs_units, hsign, ← not_lt, hleads.largestNumber_lt_iff,
    hleads.lt_two_zpow_iff, ← not_lt, hleads.lt_two_zpow_iff]
  refine ⟨fun hover => ?_, fun hover => ?_⟩
  · rw [if_pos hover]
    exact overflowed_fpOverflow t rm neg
  · rw [if_neg hover]
    have hsmall : (roundToGrid rm neg m e g : ℝ) * 2 ^ g < 2 ^ (fmtEmax t + 1) := by
      rcases hgrid with rfl | h
      · rw [hleads.lt_two_zpow_iff]
        omega
      · obtain rfl : g = fmtQmin t := by omega
        have hunits := Nat.cast_le (α := ℝ).2 ((roundToGrid_lead (t := t) hm rm neg).2 _ hgU)
        exact (mul_le_mul_of_nonneg_right hunits (two_zpow_pos _).le).trans_lt (subnormal_units_lt t)
    obtain ⟨hnum, hsgn, hround⟩ := roundsTo_representable hm ht rm neg hgU hd hgrid hsmall
    have hoff : offGrid m e g = true ↔ signed neg ((roundToGrid rm neg m e g : ℝ) * 2 ^ g) ≠ signed neg x := by
      rw [offGrid_iff ht hgU rm neg, ne_eq, ne_eq, signed_inj]
    refine ⟨_, hnum, hround, hsgn, fun hz => ?_, fun hz htiny => ?_, fun hz htiny => ?_⟩
    · have hexact : offGrid m e g = false := by
        rw [← Bool.not_eq_true, hoff]
        exact fun h => h hz
      simp [hexact, flagIf, flagsNone]
    · simp [hoff.2 hz, htiny, flagIf]
    · simp [hoff.2 hz, htiny, flagIf, flagsNone]

end Rounded

end Sys2Proof.Machine
end
section
/-! PROOFS. Exact results rounded once: a number, an integer, a sum, a product and the fused operations. -/

namespace Sys2Proof.Machine

/-! ### Numbers as the model reads them -/

section Read

variable {t : Fmt} {v : FpBits t} {x : ℝ}

theorem numReal_eq_zero_iff {neg : Bool} {m : Nat} {e : Int} : numReal neg m e = 0 ↔ m = 0 := by
  cases neg <;> simp [numReal, (two_zpow_pos e).ne']

theorem IsNumber.unpack (h : IsNumber t v x) : ∃ m e, fpUnpack t v = .num (fpSign t v) m e ∧ x = numReal (fpSign t v) m e := by
  obtain ⟨neg, m, e, hu, rfl⟩ := h
  obtain ⟨-, rfl, -⟩ := fpUnpack_num_iff.1 hu
  exact ⟨m, e, hu, rfl⟩

/-- A number of a format and its sign say the pattern. -/
theorem IsNumber.eq_of_sign {w : FpBits t} (hv : IsNumber t v x) (hw : IsNumber t w x) (hs : fpSign t v = fpSign t w) :
    v = w := by
  obtain ⟨-, hxv⟩ := isNumber_iff.1 hv
  obtain ⟨-, hxw⟩ := isNumber_iff.1 hw
  refine fpBits_ext hs ((magValue_strictMono t).injective ?_)
  rw [hxv, hs, signed_inj] at hxw
  exact hxw

theorem fpSign_of_isNumber (h : IsNumber t v x) (hx : x ≠ 0) : fpSign t v = decide (x < 0) := by
  obtain ⟨-, rfl⟩ := isNumber_iff.1 h
  have hnn := magValue_nonneg t (fpMagnitude t v)
  cases hs : fpSign t v with
  | false => simp [signed, hnn]
  | true =>
    rw [hs] at hx
    have : magValue t (fpMagnitude t v) ≠ 0 := by simpa [signed] using hx
    simpa [signed] using lt_of_le_of_ne hnn this.symm

end Read

/-! ### `fpRound` -/

section Round

variable {t : Fmt} {rm : Rm} {neg : Bool} {m : Nat} {e : Int}

theorem fpRoundNonzero_numReal (hm : m ≠ 0) : RoundedOnce t rm (numReal neg m e) (fpRoundNonzero t rm neg m e) := by
  rw [numReal_eq_signed]
  exact fpRoundNonzero_roundedOnce hm (mul_pos (by positivity) (two_zpow_pos e)) (tracks_self m e _) rm neg

theorem fpRound_numReal (hm : m ≠ 0) : RoundedOnce t rm (numReal neg m e) (fpRound t rm neg m e) := by
  rw [fpRound, if_neg hm]
  exact fpRoundNonzero_numReal hm

theorem fpRound_zero : fpRound t rm neg 0 e = (fpZero t neg, flagsNone) := if_pos rfl

/-- A number of the format is rounded to itself. -/
theorem RoundedOnce.eq_of_isNumber {x : ℝ} {r : FpRes t} {v : FpBits t} (h : RoundedOnce t rm x r) (hv : IsNumber t v x)
    (hx : x ≠ 0) : r = (v, flagsNone) := by
  obtain ⟨mag, hmag, habs⟩ := representable_iff.1 ⟨v, hv⟩
  obtain ⟨y, hy, -, hin⟩ := h
  have hprec : OfPrecision (fmtPrecision t) x := by
    obtain ⟨n, k, hn, -, hunits⟩ := magValue_eq_units t mag
    exact ⟨n, k, hn, habs.trans hunits⟩
  have hyx := roundsTo_self hy hprec
  have hle : |y| ≤ largestNumber t := by
    rw [hyx, habs, largestNumber_eq]
    exact (magValue_strictMono t).monotone (by omega)
  obtain ⟨z, hz, hround, hsign, hflags, -⟩ := hin hle
  have hzx := roundsTo_self hround ⟨v, hv⟩
  refine Prod.ext ?_ (hflags hzx)
  rw [hzx] at hz
  exact hz.eq_of_sign hv (hsign.trans (fpSign_of_isNumber hv hx).symm)

end Round

/-- Settles O38: `fpRound_numReal`, and a number of the format is rounded to itself. -/
theorem roundedToFormat : Obligations.RoundedToFormat := by
  refine fun fmt rm => ⟨fun v neg m e h => ?_, fun neg e => fpRound_zero, fun neg m e hm => fpRound_numReal hm⟩
  rcases eq_or_ne m 0 with rfl | hm
  · obtain ⟨hmag, hneg, hsig, -⟩ := fpUnpack_num_iff.1 h
    have hzero : fpMagnitude fmt v = 0 := by
      have h0 : magValue fmt (fpMagnitude fmt v) = magValue fmt 0 := by rw [magValue_zero, magValue, ← hsig]; simp
      exact (magValue_strictMono fmt).injective h0
    rw [fpRound_zero, fpZero, hneg, ← hzero, fpPack_sign_magnitude]
  · exact (fpRound_numReal hm).eq_of_isNumber ⟨neg, m, e, h, rfl⟩ (numReal_eq_zero_iff.not.2 hm)

/-! ### Conversions to a format -/

theorem numReal_natAbs (n : Int) (e : Int) : numReal (decide (n < 0)) n.natAbs e = n * 2 ^ e := by
  have habs : (n.natAbs : ℝ) = |(n : ℝ)| := by rw [Nat.cast_natAbs, Int.cast_abs]
  rcases lt_or_ge n 0 with h | h
  · rw [numReal, habs, abs_of_neg (by exact_mod_cast h)]
    simp [h]
  · rw [numReal, habs, abs_of_nonneg (by exact_mod_cast h)]
    simp [h.not_gt]

/-- Settles O32: the shapes `fpFromInt` and `fpToFp`; their functions by `fpRound_numReal`. -/
theorem conversionToFloatResult : Obligations.ConversionToFloatResult := by
  refine ⟨fun s rd rs1 rm m i r hrm hholds h => ?_, fun fmt m n => ⟨?_, fun hn => ?_⟩,
    fun g fmt m v => ⟨fun signalling h => ?_, fun neg h => ?_, fun h => ?_, fun x h hx => ?_⟩⟩
  · have hexec : exec i s = finishFp r.1 rd r.2 s := by
      refine of_mem_table (P := fun p => exec p.1 s = finishFp p.2.1 rd p.2.2 s) h ?_
      simp only [List.Forall]
      and_intros
      all_goals exact withRm_some hrm _ _
    rw [hexec]
    exact finishFp_spec r.1 rd r.2 s hholds
  · rintro rfl
    exact fpRound_zero
  · have := fpRound_numReal (t := fmt) (rm := m) (neg := decide (n < 0)) (e := 0) (Int.natAbs_ne_zero.2 hn)
    rwa [numReal_natAbs, zpow_zero, mul_one] at this
  · simp [fpConvert, h, fpNaN]
  · simp [fpConvert, h]
  · obtain ⟨k, e, hu, h0⟩ := IsNumber.unpack h
    obtain rfl := numReal_eq_zero_iff.1 h0.symm
    rw [fpConvert, hu]
    exact fpRound_zero
  · obtain ⟨k, e, hu, rfl⟩ := IsNumber.unpack h
    rw [fpConvert, hu]
    exact fpRound_numReal (numReal_eq_zero_iff.not.1 hx)

/-! ### Sums and products -/

theorem signedMag_natAbs_cast (neg : Bool) (m k : Nat) (e : Int) :
    (signedMag neg (m * 2 ^ k) : ℝ) * 2 ^ e = numReal neg m (e + k) := by
  rw [numReal, zpow_add₀ two_ne_zero, zpow_natCast]
  cases neg <;> simp [signedMag] <;> ring

section Sum

variable {t : Fmt} {rm : Rm} {na nb : Bool} {ma mb : Nat} {ea eb : Int}

/-- The exact sum, in units of the smaller exponent. -/
theorem sum_cast : ((signedMag na (ma * 2 ^ (ea - min ea eb).toNat) + signedMag nb (mb * 2 ^ (eb - min ea eb).toNat) : ℤ) : ℝ) *
    2 ^ min ea eb = numReal na ma ea + numReal nb mb eb := by
  have ha : min ea eb + ((ea - min ea eb).toNat : ℤ) = ea := by omega
  have hb : min ea eb + ((eb - min ea eb).toNat : ℤ) = eb := by omega
  rw [Int.cast_add, add_mul, signedMag_natAbs_cast, signedMag_natAbs_cast, ha, hb]

theorem fpSumNum_roundedOnce (h : numReal na ma ea + numReal nb mb eb ≠ 0) :
    RoundedOnce t rm (numReal na ma ea + numReal nb mb eb) (fpSumNum t rm na ma ea nb mb eb) := by
  rw [← sum_cast] at h ⊢
  have hsum := Int.cast_ne_zero.1 (left_ne_zero_of_mul h)
  rw [fpSumNum]
  rw [if_neg hsum, ← numReal_natAbs]
  exact fpRoundNonzero_numReal (Int.natAbs_ne_zero.2 hsum)

theorem fpSumNum_zero (h : numReal na ma ea + numReal nb mb eb = 0) :
    fpSumNum t rm na ma ea nb mb eb = (fpZero t (if na = nb then na else decide (rm = .rdn)), flagsNone) := by
  rw [← sum_cast] at h
  have hsum := Int.cast_eq_zero.1 ((mul_eq_zero.1 h).resolve_right (two_zpow_pos _).ne')
  rw [fpSumNum]
  rw [if_pos hsum]

theorem numReal_not : numReal (!na) ma ea = -numReal na ma ea := by cases na <;> simp [numReal]

theorem numReal_mul : numReal (na != nb) (ma * mb) (ea + eb) = numReal na ma ea * numReal nb mb eb := by
  rw [numReal, numReal, numReal, zpow_add₀ two_ne_zero]
  cases na <;> cases nb <;> push_cast <;> simp <;> ring

end Sum

/-- The sums and the fused operations, each with the exact sum and the signs of what is added. -/
noncomputable def sumForms (t : Fmt) (rm : Rm) (a b c : FpBits t) (A B C : ℝ) : List (FpRes t × ℝ × Bool × Bool) := [
  (fpAdd t rm a b, A + B, fpSign t a, fpSign t b),
  (fpSub t rm a b, A - B, fpSign t a, !fpSign t b),
  (fpMadd t rm a b c, A * B + C, fpSign t a != fpSign t b, fpSign t c),
  (fpMsub t rm a b c, A * B - C, fpSign t a != fpSign t b, !fpSign t c),
  (fpNmsub t rm a b c, -(A * B) + C, fpSign t a == fpSign t b, fpSign t c),
  (fpNmadd t rm a b c, -(A * B) - C, fpSign t a == fpSign t b, !fpSign t c)]

/-- On numbers they are `fpSumNum`, of an addend and a number or an exact product. -/
theorem sumForms_num {t : Fmt} {rm : Rm} {a b c : FpBits t} {A B C : ℝ} (ha : IsNumber t a A) (hb : IsNumber t b B)
    (hc : IsNumber t c C) {r : FpRes t} {x : ℝ} {p q : Bool} (h : (r, x, p, q) ∈ sumForms t rm a b c A B C) :
    ∃ (m : Nat) (e : Int) (m' : Nat) (e' : Int), r = fpSumNum t rm p m e q m' e' ∧ x = numReal p m e + numReal q m' e' := by
  obtain ⟨ma, ea, hua, rfl⟩ := ha.unpack
  obtain ⟨mb, eb, hub, rfl⟩ := hb.unpack
  obtain ⟨mc, ec, huc, rfl⟩ := hc.unpack
  have hnot : (fpSign t a == fpSign t b) = !(fpSign t a != fpSign t b) := by simp [bne]
  rw [sumForms, hnot] at h
  simp only [List.mem_cons, List.not_mem_nil, or_false, Prod.mk.injEq] at h
  obtain ⟨rfl, rfl, rfl, rfl⟩ | ⟨rfl, rfl, rfl, rfl⟩ | ⟨rfl, rfl, rfl, rfl⟩ | ⟨rfl, rfl, rfl, rfl⟩ | ⟨rfl, rfl, rfl, rfl⟩ |
    ⟨rfl, rfl, rfl, rfl⟩ := h
  · exact ⟨ma, ea, mb, eb, by rw [fpAdd, hua, hub]; rfl, rfl⟩
  · exact ⟨ma, ea, mb, eb, by rw [fpSub, hua, hub]; rfl, by rw [numReal_not, sub_eq_add_neg]⟩
  · exact ⟨ma * mb, ea + eb, mc, ec, by rw [fpMadd, fpFused, hua, hub, huc]; rfl, by rw [numReal_mul]⟩
  · exact ⟨ma * mb, ea + eb, mc, ec, by rw [fpMsub, fpFused, hua, hub, huc]; rfl,
      by rw [numReal_mul, numReal_not, sub_eq_add_neg]⟩
  · exact ⟨ma * mb, ea + eb, mc, ec, by rw [fpNmsub, fpFused, hua, hub, huc]; rfl, by rw [numReal_not, numReal_mul]⟩
  · exact ⟨ma * mb, ea + eb, mc, ec, by rw [fpNmadd, fpFused, hua, hub, huc]; rfl,
      by rw [numReal_not, numReal_not, numReal_mul, sub_eq_add_neg]⟩

/-- A product of numbers is the exact one, rounded. -/
theorem fpMul_num {t : Fmt} {rm : Rm} {a b : FpBits t} {A B : ℝ} (ha : IsNumber t a A) (hb : IsNumber t b B) :
    ∃ (m : Nat) (e : Int), fpMul t rm a b = fpRound t rm (fpSign t a != fpSign t b) m e ∧
      A * B = numReal (fpSign t a != fpSign t b) m e := by
  obtain ⟨ma, ea, hua, rfl⟩ := ha.unpack
  obtain ⟨mb, eb, hub, rfl⟩ := hb.unpack
  exact ⟨ma * mb, ea + eb, by rw [fpMul, hua, hub]; rfl, numReal_mul.symm⟩

/-- Settles O39: `sumForms_num` and `fpMul_num`. -/
theorem floatArithmeticExact : Obligations.FloatArithmeticExact := by
  intro fmt rm a b c A B C ha hb hc
  obtain ⟨m, e, hmul, hprod⟩ := fpMul_num (rm := rm) ha hb
  refine ⟨fun r x h hx => ?_, fun h0 => ?_, fun r x p q h hx => ?_⟩
  · by_cases hm : (r, x) = (fpMul fmt rm a b, A * B)
    · cases hm
      rw [hmul]
      rw [hprod] at hx ⊢
      exact fpRound_numReal (numReal_eq_zero_iff.not.1 hx)
    · obtain ⟨⟨r', x', p, q⟩, hform, heq⟩ : ∃ f ∈ sumForms fmt rm a b c A B C, (f.1, f.2.1) = (r, x) := by
        rw [← List.mem_map]
        simp only [sumForms, List.map_cons, List.map_nil, List.mem_cons, hm, false_or] at h ⊢
        exact h
      cases heq
      obtain ⟨m, e, m', e', rfl, rfl⟩ := sumForms_num ha hb hc hform
      exact fpSumNum_roundedOnce hx
  · rw [hprod, numReal_eq_zero_iff] at h0
    rw [hmul, h0]
    exact fpRound_zero
  · obtain ⟨m, e, m', e', rfl, rfl⟩ := sumForms_num ha hb hc h
    exact fpSumNum_zero hx

end Sys2Proof.Machine
end
section
/-! PROOFS. Quotients and square roots: a last bit that is set exactly when something is left over puts the number among
the grids where the exact one is. -/

namespace Sys2Proof.Machine

/-! ### The last bit -/

/-- A number between `N` and `N + 1` units, with a last bit set exactly when it is not `N` units. -/
theorem tracks_of_sticky {x : ℝ} {N last : Nat} {e g : Int} (hlo : (N : ℝ) * 2 ^ (e + 1) ≤ x)
    (hhi : x < ((N + 1 : ℕ) : ℝ) * 2 ^ (e + 1)) (hlast : last = if x = N * 2 ^ (e + 1) then 0 else 1) (hg : e + 2 ≤ g) :
    Tracks x (2 * N + last) e g := by
  by_cases hx : x = N * 2 ^ (e + 1)
  · rw [if_pos hx] at hlast
    rw [hx, hlast, Nat.add_zero, ← double_units]
    exact tracks_self _ _ _
  · rw [if_neg hx] at hlast
    subst hlast
    intro h hh c
    have hpos := two_zpow_pos (e + 1)
    have hlo' : (N : ℝ) * 2 ^ (e + 1) < x := lt_of_le_of_ne hlo (Ne.symm hx)
    obtain ⟨M, hM⟩ : ∃ M : Nat, (c : ℝ) * 2 ^ (h - 1) = M * 2 ^ (e + 1) := by
      refine ⟨c * 2 ^ (h - 1 - (e + 1)).toNat, ?_⟩
      rw [two_zpow_add_toNat (show e + 1 ≤ h - 1 by omega), Nat.cast_mul]
      ring
    have hM' : (M : ℝ) * 2 ^ (e + 1) = ((2 * M : ℕ) : ℝ) * 2 ^ e := (double_units M e).symm
    rw [hM]
    constructor
    · have hright : (M : ℝ) * 2 ^ (e + 1) < ((2 * N + 1 : ℕ) : ℝ) * 2 ^ e ↔ M ≤ N := by
        rw [hM', mul_lt_mul_iff_left₀ (two_zpow_pos e), Nat.cast_lt]
        omega
      rw [hright]
      refine ⟨fun hlt => ?_, fun hle => lt_of_le_of_lt ?_ hlo'⟩
      · have := (mul_lt_mul_iff_left₀ hpos).1 (hlt.trans hhi)
        exact Nat.lt_succ_iff.1 (by exact_mod_cast this)
      · exact mul_le_mul_of_nonneg_right (by exact_mod_cast hle) hpos.le
    · have hright : ((2 * N + 1 : ℕ) : ℝ) * 2 ^ e < (M : ℝ) * 2 ^ (e + 1) ↔ N + 1 ≤ M := by
        rw [hM', mul_lt_mul_iff_left₀ (two_zpow_pos e), Nat.cast_lt]
        omega
      rw [hright]
      refine ⟨fun hlt => ?_, fun hle => hhi.trans_le ?_⟩
      · have := (mul_lt_mul_iff_left₀ hpos).1 (hlo'.trans hlt)
        exact_mod_cast this
      · exact mul_le_mul_of_nonneg_right (by exact_mod_cast hle) hpos.le

/-- With as many units as the precision has, the last bit decides every rounding. -/
theorem fpRoundNonzero_sticky {t : Fmt} {x : ℝ} {N last : Nat} {e : Int} (hN : 2 ^ fmtPrecision t ≤ N)
    (hlo : (N : ℝ) * 2 ^ (e + 1) ≤ x) (hhi : x < ((N + 1 : ℕ) : ℝ) * 2 ^ (e + 1))
    (hlast : last = if x = N * 2 ^ (e + 1) then 0 else 1) (rm : Rm) (neg : Bool) :
    RoundedOnce t rm (signed neg x) (fpRoundNonzero t rm neg (2 * N + last) e) := by
  have hpos : 0 < N := (Nat.two_pow_pos _).trans_le hN
  have hlog : t.fracBits + 2 ≤ Nat.log2 (2 * N + last) := by
    rw [Nat.le_log2 (by omega), Nat.pow_succ']
    exact (Nat.mul_le_mul_left 2 hN).trans (Nat.le_add_right _ _)
  refine fpRoundNonzero_roundedOnce (by omega) ?_ (tracks_of_sticky hlo hhi hlast ?_) rm neg
  · exact (mul_pos (Nat.cast_pos.2 hpos) (two_zpow_pos _)).trans_le hlo
  · rw [leadUnit]
    omega

/-! ### Quotients -/

theorem numReal_div {na nb : Bool} {ma mb : Nat} {ea eb : Int} :
    numReal na ma ea / numReal nb mb eb = signed (na != nb) ((ma : ℝ) / mb * 2 ^ (ea - eb)) := by
  rw [numReal_eq_signed, numReal_eq_signed, zpow_sub₀ two_ne_zero]
  cases na <;> cases nb <;> simp [signed, div_mul_div_comm, neg_div, div_neg]

theorem fpQuotient_roundedOnce {t : Fmt} {rm : Rm} {neg : Bool} {ma mb : Nat} {ea eb : Int} (ha : ma ≠ 0) (hb : mb ≠ 0) :
    RoundedOnce t rm (signed neg ((ma : ℝ) / mb * 2 ^ (ea - eb))) (fpQuotient t rm neg ma ea mb eb) := by
  rw [fpQuotient]
  generalize hk : fmtPrecision t + 3 + Nat.log2 mb = k
  have hbpos : (0 : ℝ) < mb := by positivity
  have hexp : ea - eb - (k : ℤ) - 1 + 1 = ea - eb - k := by ring
  have hx : (ma : ℝ) / mb * 2 ^ (ea - eb) = ((ma * 2 ^ k : ℕ) : ℝ) / mb * 2 ^ (ea - eb - (k : ℤ)) := by
    rw [zpow_sub₀ two_ne_zero (ea - eb) (k : ℤ), zpow_natCast]
    push_cast
    field_simp
  have hpos := two_zpow_pos (ea - eb - (k : ℤ))
  have hdiv := Nat.div_add_mod' (ma * 2 ^ k) mb
  have hmod := Nat.mod_lt (ma * 2 ^ k) (Nat.pos_of_ne_zero hb)
  have hlong : 2 ^ fmtPrecision t ≤ ma * 2 ^ k / mb := by
    rw [Nat.le_div_iff_mul_le (Nat.pos_of_ne_zero hb)]
    have hlog : mb ≤ 2 * 2 ^ Nat.log2 mb := by
      rw [← Nat.pow_succ']
      exact Nat.lt_log2_self.le
    calc 2 ^ fmtPrecision t * mb ≤ 2 ^ fmtPrecision t * (2 * 2 ^ Nat.log2 mb) := Nat.mul_le_mul_left _ hlog
      _ ≤ 2 ^ k := by
        rw [← hk, Nat.pow_add, Nat.pow_add]
        nlinarith [Nat.two_pow_pos (fmtPrecision t), Nat.two_pow_pos (Nat.log2 mb),
          Nat.mul_pos (Nat.two_pow_pos (fmtPrecision t)) (Nat.two_pow_pos (Nat.log2 mb))]
      _ ≤ ma * 2 ^ k := Nat.le_mul_of_pos_left _ (Nat.pos_of_ne_zero ha)
  refine fpRoundNonzero_sticky hlong ?_ ?_ ?_ rm neg
  · rw [hexp, hx, mul_le_mul_iff_left₀ hpos, le_div_iff₀ hbpos]
    exact_mod_cast Nat.div_mul_le_self _ _
  · rw [hexp, hx, mul_lt_mul_iff_left₀ hpos, div_lt_iff₀ hbpos]
    have hlt : ma * 2 ^ k < (ma * 2 ^ k / mb + 1) * mb := by
      rw [Nat.mul_comm (_ + 1)]
      exact Nat.lt_mul_div_succ _ (Nat.pos_of_ne_zero hb)
    exact_mod_cast hlt
  · rw [hexp, hx]
    refine if_congr ?_ rfl rfl
    rw [mul_left_inj' hpos.ne', div_eq_iff hbpos.ne', ← Nat.cast_mul, Nat.cast_inj]
    omega

/-! ### Square roots -/

theorem fpRoot_roundedOnce {t : Fmt} {rm : Rm} {m : Nat} {e : Int} (hm : m ≠ 0) :
    RoundedOnce t rm (Real.sqrt (m * 2 ^ e)) (fpRoot t rm m e) := by
  rw [fpRoot]
  generalize hk : 2 * (fmtPrecision t + 2) + (e % 2).toNat = k
  obtain ⟨half, hhalf⟩ : ∃ half : ℤ, e - k = half + half := ⟨(e - k) / 2, by omega⟩
  have hexp : (e - (k : ℤ)) / 2 - 1 + 1 = half := by omega
  have hx : Real.sqrt (m * 2 ^ e) = Real.sqrt ((m * 2 ^ k : ℕ) : ℝ) * 2 ^ half := by
    have hsq : (m : ℝ) * 2 ^ e = ((m * 2 ^ k : ℕ) : ℝ) * ((2 : ℝ) ^ half * 2 ^ half) := by
      rw [← zpow_add₀ two_ne_zero, ← hhalf, zpow_sub₀ two_ne_zero, zpow_natCast]
      push_cast
      field_simp
    rw [hsq, Real.sqrt_mul (Nat.cast_nonneg _), Real.sqrt_mul_self (two_zpow_pos half).le]
  obtain ⟨hlo, hhi⟩ := isqrt_spec (m * 2 ^ k)
  have hpos := two_zpow_pos half
  set n := m * 2 ^ k
  have hlong : 2 ^ fmtPrecision t ≤ isqrt n := by
    have hn : 2 ^ (fmtPrecision t + 2) * 2 ^ (fmtPrecision t + 2) ≤ n := by
      rw [← Nat.pow_add]
      exact (Nat.pow_le_pow_right two_pos (by omega)).trans (Nat.le_mul_of_pos_left _ (Nat.pos_of_ne_zero hm))
    have hlt : 2 ^ (fmtPrecision t + 2) < isqrt n + 1 := Nat.mul_self_lt_mul_self_iff.1 (hn.trans_lt hhi)
    exact (Nat.pow_le_pow_right two_pos (by omega)).trans (Nat.lt_succ_iff.1 hlt)
  refine fpRoundNonzero_sticky hlong ?_ ?_ ?_ rm false
  · rw [hexp, hx, mul_le_mul_iff_left₀ hpos]
    exact Real.le_sqrt_of_sq_le (by rw [sq]; exact_mod_cast hlo)
  · rw [hexp, hx, mul_lt_mul_iff_left₀ hpos, Real.sqrt_lt' (by positivity), sq]
    exact_mod_cast hhi
  · rw [hexp, hx]
    refine if_congr ?_ rfl rfl
    rw [mul_left_inj' hpos.ne', Real.sqrt_eq_iff_mul_self_eq (Nat.cast_nonneg _) (Nat.cast_nonneg _), ← Nat.cast_mul,
      Nat.cast_inj]
    exact eq_comm

theorem isNumber_fpZero (t : Fmt) (neg : Bool) : IsNumber t (fpZero t neg) 0 := by
  have h := isNumber_pack (t := t) (neg := neg) (mag := 0) (by cases t <;> decide)
  have h0 : signed neg (magValue t 0) = 0 := by cases neg <;> simp [signed, magValue_zero]
  exact h0 ▸ h

theorem fpSign_fpZero (t : Fmt) (neg : Bool) : fpSign t (fpZero t neg) = neg := fpSign_pack t neg (Nat.two_pow_pos _)

/-- Settles O40: `fpQuotient_roundedOnce` and `fpRoot_roundedOnce`, and the zeros. -/
theorem divideSquareRootRounded : Obligations.DivideSquareRootRounded := by
  intro fmt rm a b A B ha hb
  obtain ⟨ma, ea, hua, hA⟩ := ha.unpack
  obtain ⟨mb, eb, hub, hB⟩ := hb.unpack
  have hA0 : A = 0 ↔ ma = 0 := hA ▸ numReal_eq_zero_iff
  have hB0 : B = 0 ↔ mb = 0 := hB ▸ numReal_eq_zero_iff
  have hdiv : fpDiv fmt rm a b =
      if mb = 0 then
        if ma = 0 then fpInvalid fmt else (fpInf fmt (fpSign fmt a != fpSign fmt b), flagDZ)
      else if ma = 0 then (fpZero fmt (fpSign fmt a != fpSign fmt b), flagsNone)
      else fpQuotient fmt rm (fpSign fmt a != fpSign fmt b) ma ea mb eb := by rw [fpDiv, hua, hub]
  have hsqrt : fpSqrt fmt rm a =
      if ma = 0 then (fpZero fmt (fpSign fmt a), flagsNone)
      else if fpSign fmt a then fpInvalid fmt else fpRoot fmt rm ma ea := by rw [fpSqrt, hua]
  rw [hdiv, hsqrt, ne_eq, ne_eq, hA0, hB0]
  refine ⟨fun h h' => ?_, fun h h' => ?_, fun h h' => ?_, fun h h' => ?_, fun h => ?_, fun h => ?_, fun h => ?_⟩
  · rw [if_neg h', if_neg h, hA, hB, numReal_div]
    exact fpQuotient_roundedOnce h h'
  · rw [if_neg h', if_pos h]
  · rw [if_pos h', if_neg h]
  · rw [if_pos h', if_pos h]
    rfl
  · have hm : ma ≠ 0 := hA0.not.1 h.ne'
    have hs : fpSign fmt a = false := by simpa [h.not_gt] using fpSign_of_isNumber ha h.ne'
    rw [if_neg hm, hs, if_neg (by simp), hA, hs, numReal_eq_signed]
    exact fpRoot_roundedOnce hm
  · rw [if_pos h]
    have hzero : IsNumber fmt a 0 := hA0.2 h ▸ ha
    rw [(isNumber_fpZero fmt (fpSign fmt a)).eq_of_sign hzero (fpSign_fpZero fmt _)]
  · have hm : ma ≠ 0 := hA0.not.1 h.ne
    have hs : fpSign fmt a = true := by simpa [h] using fpSign_of_isNumber ha h.ne
    rw [if_neg hm, if_pos hs]
    rfl

end Sys2Proof.Machine
end
section
/-! PROOFS. Operands that are no numbers: NaNs, infinities and the invalid operations on them. -/

namespace Sys2Proof.Machine

/-! ### Values -/

/-- Whether a value is a NaN. -/
def FpVal.isNaN : FpVal → Bool
  | .nan _ => true
  | .inf _ => false
  | .num .. => false

/-- The value, or with the opposite sign. -/
def negIf (flip : Bool) (v : FpVal) : FpVal := if flip then fpNegVal v else v

@[simp] theorem negIf_nan (flip s : Bool) : negIf flip (.nan s) = .nan s := by cases flip <;> rfl
@[simp] theorem negIf_inf (flip n : Bool) : negIf flip (.inf n) = .inf (n != flip) := by cases flip <;> cases n <;> rfl
@[simp] theorem negIf_num (flip n : Bool) (m : Nat) (e : Int) : negIf flip (.num n m e) = .num (n != flip) m e := by
  cases flip <;> cases n <;> rfl

@[simp] theorem isNaN_negIf (flip : Bool) (v : FpVal) : (negIf flip v).isNaN = v.isNaN := by
  cases v <;> simp [FpVal.isNaN]

@[simp] theorem isSignalling_negIf (flip : Bool) (v : FpVal) : isSignalling (negIf flip v) = isSignalling v := by
  cases v <;> simp [isSignalling]

theorem fpIsNaN_eq (t : Fmt) (v : FpBits t) : fpIsNaN t v = (fpUnpack t v).isNaN := by
  unfold fpIsNaN
  cases fpUnpack t v <;> rfl

section Sums

variable {t : Fmt} {rm : Rm} {u v : FpVal}

theorem fpSumVal_nan (h : u.isNaN = true ∨ v.isNaN = true) :
    fpSumVal t rm u v = fpNaN t (isSignalling u || isSignalling v) := by
  cases u with
  | nan su => cases v <;> simp [fpSumVal, isSignalling]
  | inf nu =>
    cases v with
    | nan sv => simp [fpSumVal, isSignalling]
    | inf | num => simp [FpVal.isNaN] at h
  | num nu mu eu =>
    cases v with
    | nan sv => simp [fpSumVal, isSignalling]
    | inf | num => simp [FpVal.isNaN] at h

theorem fpProduct_nan (h : u.isNaN = true ∨ v.isNaN = true) :
    fpProduct u v = .value (.nan (isSignalling u || isSignalling v)) := by
  cases u with
  | nan su => cases v <;> simp [fpProduct, isSignalling]
  | inf nu =>
    cases v with
    | nan sv => simp [fpProduct, isSignalling]
    | inf | num => simp [FpVal.isNaN] at h
  | num nu mu eu =>
    cases v with
    | nan sv => simp [fpProduct, isSignalling]
    | inf | num => simp [FpVal.isNaN] at h

/-- A product that is none of a NaN is no NaN. -/
theorem fpProduct_not_nan {p : FpVal} (hu : u.isNaN = false) (hv : v.isNaN = false) (h : fpProduct u v = .value p) :
    p.isNaN = false ∧ isSignalling p = false := by
  cases u with
  | nan su => simp [FpVal.isNaN] at hu
  | inf nu =>
    cases v with
    | nan sv => simp [FpVal.isNaN] at hv
    | inf nv => cases h; exact ⟨rfl, rfl⟩
    | num nv mv ev =>
      simp only [fpProduct] at h
      split at h <;> cases h
      exact ⟨rfl, rfl⟩
  | num nu mu eu =>
    cases v with
    | nan sv => simp [FpVal.isNaN] at hv
    | inf nv =>
      simp only [fpProduct] at h
      split at h <;> cases h
      exact ⟨rfl, rfl⟩
    | num nv mv ev => cases h; exact ⟨rfl, rfl⟩

theorem isSignalling_of_not_nan (h : u.isNaN = false) : isSignalling u = false := by
  cases u with
  | nan s => simp [FpVal.isNaN] at h
  | inf | num => rfl

end Sums

/-! ### Patterns -/

section Patterns

variable {t : Fmt} {rm : Rm} {a b c : FpBits t}

theorem IsInf.unpack (h : IsInf t a) : fpUnpack t a = .inf (fpSign t a) := fpUnpack_of_eq (isInf_iff.1 h)

theorem fpProduct_infinite (h : InfiniteProduct t a b) :
    fpProduct (fpUnpack t a) (fpUnpack t b) = .value (.inf (fpSign t a != fpSign t b)) := by
  rcases h with ⟨ha, hb⟩ | ⟨x, hx, ⟨ha, hb⟩ | ⟨ha, hb⟩⟩
  · rw [ha.unpack, hb.unpack, fpProduct]
  · obtain ⟨m, e, hu, rfl⟩ := hb.unpack
    rw [ha.unpack, hu, fpProduct, if_neg (numReal_eq_zero_iff.not.1 hx)]
  · obtain ⟨m, e, hu, rfl⟩ := ha.unpack
    rw [hb.unpack, hu, fpProduct, if_neg (numReal_eq_zero_iff.not.1 hx)]

theorem fpProduct_invalid (h : InvalidProduct t a b) : fpProduct (fpUnpack t a) (fpUnpack t b) = .invalid := by
  rcases h with ⟨ha, hb⟩ | ⟨ha, hb⟩
  · obtain ⟨m, e, hu, h0⟩ := IsNumber.unpack hb
    rw [ha.unpack, hu, fpProduct, if_pos (numReal_eq_zero_iff.1 h0.symm)]
  · obtain ⟨m, e, hu, h0⟩ := IsNumber.unpack ha
    rw [hb.unpack, hu, fpProduct, if_pos (numReal_eq_zero_iff.1 h0.symm)]

/-- Any other product has a value. -/
theorem fpProduct_value (h : ¬ InvalidProduct t a b) : ∃ p, fpProduct (fpUnpack t a) (fpUnpack t b) = .value p := by
  have hzero : ∀ {v : FpBits t} {n : Bool} {m : Nat} {e : Int}, fpUnpack t v = .num n m e → m = 0 → IsZero t v := by
    rintro v n m e hu rfl
    exact ⟨n, 0, e, hu, by simp [numReal]⟩
  cases hua : fpUnpack t a with
  | nan sa => cases fpUnpack t b <;> exact ⟨_, rfl⟩
  | inf na =>
    cases hub : fpUnpack t b with
    | nan sb => exact ⟨_, rfl⟩
    | inf nb => exact ⟨_, rfl⟩
    | num nb mb eb => exact ⟨_, if_neg fun h0 => h (.inl ⟨⟨na, hua⟩, hzero hub h0⟩)⟩
  | num na ma ea =>
    cases hub : fpUnpack t b with
    | nan sb => exact ⟨_, rfl⟩
    | inf nb => exact ⟨_, if_neg fun h0 => h (.inr ⟨hzero hua h0, ⟨nb, hub⟩⟩)⟩
    | num nb mb eb => exact ⟨_, rfl⟩

theorem fpAdd_fpSub {r : FpRes t} {flip : Bool} (h : (r, flip) ∈ [(fpAdd t rm a b, false), (fpSub t rm a b, true)]) :
    r = fpSumVal t rm (fpUnpack t a) (negIf flip (fpUnpack t b)) :=
  List.map_inj_left (f := fun p => p.1) (g := fun p => fpSumVal t rm (fpUnpack t a) (negIf p.2 (fpUnpack t b))) |>.1 rfl _ h

theorem fused_forms {r : FpRes t} {fp fc : Bool} (h : (r, fp, fc) ∈ [
      (fpMadd t rm a b c, false, false), (fpMsub t rm a b c, false, true),
      (fpNmsub t rm a b c, true, false), (fpNmadd t rm a b c, true, true)]) : r = fpFused t rm fp fc a b c :=
  List.map_inj_left (f := fun p => p.1) (g := fun p => fpFused t rm p.2.1 p.2.2 a b c) |>.1 rfl _ h

theorem fpDiv_nan (h : (fpUnpack t a).isNaN = true ∨ (fpUnpack t b).isNaN = true) :
    fpDiv t rm a b = fpNaN t (fpIsSNaN t a || fpIsSNaN t b) := by
  unfold fpDiv fpIsSNaN
  cases hua : fpUnpack t a with
  | nan sa => cases fpUnpack t b <;> simp [isSignalling]
  | inf na =>
    cases hub : fpUnpack t b with
    | nan sb => simp [isSignalling]
    | inf | num => simp [hua, hub, FpVal.isNaN] at h
  | num na ma ea =>
    cases hub : fpUnpack t b with
    | nan sb => simp [isSignalling]
    | inf | num => simp [hua, hub, FpVal.isNaN] at h

theorem fpSqrt_nan (h : (fpUnpack t a).isNaN = true) : fpSqrt t rm a = fpNaN t (fpIsSNaN t a) := by
  unfold fpSqrt fpIsSNaN
  cases hua : fpUnpack t a with
  | nan s => rfl
  | inf | num => simp [hua, FpVal.isNaN] at h

theorem fpFused_invalid {fp fc : Bool} (h : fpProduct (fpUnpack t a) (fpUnpack t b) = .invalid) :
    fpFused t rm fp fc a b c = fpInvalid t := by
  rw [fpFused, h]

theorem fpFused_value {fp fc : Bool} {p : FpVal} (h : fpProduct (fpUnpack t a) (fpUnpack t b) = .value p) :
    fpFused t rm fp fc a b c = fpSumVal t rm (negIf fp p) (negIf fc (fpUnpack t c)) := by
  rw [fpFused, h]
  rfl

theorem fpFused_nan {fp fc : Bool} (h : ¬ InvalidProduct t a b)
    (hnan : fpIsNaN t a = true ∨ fpIsNaN t b = true ∨ fpIsNaN t c = true) :
    fpFused t rm fp fc a b c = fpNaN t (fpIsSNaN t a || fpIsSNaN t b || fpIsSNaN t c) := by
  simp only [fpIsNaN_eq] at hnan
  simp only [fpIsSNaN]
  by_cases hab : (fpUnpack t a).isNaN = true ∨ (fpUnpack t b).isNaN = true
  · rw [fpFused_value (fpProduct_nan hab), fpSumVal_nan (.inl (by simp [FpVal.isNaN])), negIf_nan, isSignalling_negIf]
    rfl
  · obtain ⟨p, hp⟩ := fpProduct_value h
    obtain ⟨ha, hb⟩ := not_or.1 hab
    rw [Bool.not_eq_true] at ha hb
    obtain ⟨-, hsig⟩ := fpProduct_not_nan ha hb hp
    have hc : (fpUnpack t c).isNaN = true := by simpa [ha, hb] using hnan
    rw [fpFused_value hp, fpSumVal_nan (.inr (by simpa using hc))]
    simp [hsig, isSignalling_of_not_nan ha, isSignalling_of_not_nan hb]

end Patterns

/-- Settles O41: by what the operands read as. -/
theorem floatSpecialOperands : Obligations.FloatSpecialOperands := by
  intro fmt rm a b c
  refine ⟨⟨by cases fmt <;> rfl, fun neg => ⟨fpUnpack_fpInf fmt neg, isNumber_fpZero fmt neg, fpSign_fpZero fmt neg⟩⟩,
    fun h r hr => ?_, fun h => ?_, fun r flip h => ?_, fun h => ?_, fun h => ?_, fun ha hb => ?_, fun x ha hb => ?_,
    fun x ha hb => ?_, fun ha => ?_, fun r fp fc h => ?_⟩
  · rw [fpIsNaN_eq, fpIsNaN_eq] at h
    have hsum : ∀ flip, fpSumVal fmt rm (fpUnpack fmt a) (negIf flip (fpUnpack fmt b)) =
        fpNaN fmt (fpIsSNaN fmt a || fpIsSNaN fmt b) := fun flip => by
      rw [fpSumVal_nan (by simpa using h), isSignalling_negIf]
      rfl
    have hmul : fpMul fmt rm a b = fpNaN fmt (fpIsSNaN fmt a || fpIsSNaN fmt b) := by
      rw [fpMul, fpProduct_nan h]
      rfl
    simp only [List.mem_cons, List.not_mem_nil, or_false] at hr
    obtain rfl | rfl | rfl | rfl := hr
    · exact hsum false
    · exact hsum true
    · exact hmul
    · exact fpDiv_nan h
  · rw [fpIsNaN_eq] at h
    exact fpSqrt_nan h
  · obtain rfl := fpAdd_fpSub h
    refine ⟨fun ha hb => ?_, fun x ha hb => ?_, fun x ha hb => ?_⟩
    · rw [ha.unpack, hb.unpack, negIf_inf, fpSumVal]
      rfl
    · obtain ⟨m, e, hu, -⟩ := hb.unpack
      rw [ha.unpack, hu, negIf_num, fpSumVal]
    · obtain ⟨m, e, hu, -⟩ := ha.unpack
      rw [hb.unpack, hu, negIf_inf, fpSumVal]
  · rw [fpMul, fpProduct_infinite h]
  · rw [fpMul, fpProduct_invalid h]
    rfl
  · rw [fpDiv, ha.unpack, hb.unpack]
    rfl
  · obtain ⟨m, e, hu, -⟩ := hb.unpack
    rw [fpDiv, ha.unpack, hu]
  · obtain ⟨m, e, hu, -⟩ := ha.unpack
    rw [fpDiv, hb.unpack, hu]
  · rw [fpSqrt, ha.unpack]
    cases fpSign fmt a <;> rfl
  · obtain rfl := fused_forms h
    refine ⟨fun h => ?_, fun h hnan => ?_, fun x h hc => ?_, fun h hc => ?_, fun x y ha hb hc => ?_⟩
    · rw [fpFused_invalid (fpProduct_invalid h)]
      rfl
    · exact fpFused_nan h hnan
    · obtain ⟨m, e, hu, -⟩ := hc.unpack
      rw [fpFused_value (fpProduct_infinite h), hu, negIf_inf, negIf_num, fpSumVal]
    · rw [fpFused_value (fpProduct_infinite h), hc.unpack, negIf_inf, negIf_inf, fpSumVal]
      rfl
    · obtain ⟨m, e, hu, -⟩ := ha.unpack
      obtain ⟨m', e', hu', -⟩ := hb.unpack
      have hp : fpProduct (fpUnpack fmt a) (fpUnpack fmt b) =
          .value (.num (fpSign fmt a != fpSign fmt b) (m * m') (e + e')) := by rw [hu, hu', fpProduct]
      rw [fpFused_value hp, hc.unpack, negIf_num, negIf_inf, fpSumVal]

end Sys2Proof.Machine
end
section
/-! PROOFS. The order of the numbers and the infinities is that of the keys; comparisons, minimum and maximum. -/

namespace Sys2Proof.Machine

/-! ### The order of the keys -/

/-- The place of a magnitude in the order, the infinity's included. -/
noncomputable def magOrder (t : Fmt) (mag : Nat) : EReal := if mag < infMag t then (magValue t mag : EReal) else ⊤

/-- The place of a key in the order. -/
noncomputable def keyOrder (t : Fmt) (k : Int) : EReal := if k < 0 then -magOrder t k.natAbs else magOrder t k.natAbs

section Keys

variable {t : Fmt}

theorem magOrder_zero (t : Fmt) : magOrder t 0 = 0 := by
  rw [magOrder, if_pos (by cases t <;> decide), magValue_zero, EReal.coe_zero]

theorem magOrder_lt {i j : Nat} (hij : i < j) (hj : j ≤ infMag t) : magOrder t i < magOrder t j := by
  rw [magOrder, if_pos (hij.trans_le hj), magOrder]
  split
  · exact EReal.coe_lt_coe_iff.2 (magValue_strictMono t hij)
  · exact EReal.coe_lt_top _

theorem magOrder_nonneg {j : Nat} (hj : j ≤ infMag t) : 0 ≤ magOrder t j := by
  rw [← magOrder_zero t]
  rcases Nat.eq_zero_or_pos j with rfl | h
  · exact le_rfl
  · exact (magOrder_lt h hj).le

theorem keyOrder_strictMonoOn (t : Fmt) : StrictMonoOn (keyOrder t) {k | k.natAbs ≤ infMag t} := by
  intro j hj k hk hjk
  rw [Set.mem_ofPred_eq] at hj hk
  rw [keyOrder, keyOrder]
  rcases lt_or_ge j 0 with hj0 | hj0
  · rw [if_pos hj0]
    rcases lt_or_ge k 0 with hk0 | hk0
    · rw [if_pos hk0, EReal.neg_lt_neg_iff]
      exact magOrder_lt (by omega) hj
    · rw [if_neg hk0.not_gt]
      have hneg : -magOrder t j.natAbs < 0 := by
        rw [← EReal.neg_lt_neg_iff, neg_neg, neg_zero, ← magOrder_zero t]
        exact magOrder_lt (by omega) hj
      exact hneg.trans_le (magOrder_nonneg hk)
  · rw [if_neg hj0.not_gt, if_neg (by omega)]
    exact magOrder_lt (by omega) hk

theorem fpKey_natAbs (v : FpBits t) : (fpKey t v).natAbs = fpMagnitude t v := by
  rw [fpKey, signedMag]
  split <;> simp

theorem keyOrder_signed (s : Bool) (mag : Nat) :
    keyOrder t (signedMag s mag) = if s then -magOrder t mag else magOrder t mag := by
  cases s with
  | false => simp [keyOrder, signedMag]
  | true =>
    rcases Nat.eq_zero_or_pos mag with rfl | h
    · simp [keyOrder, signedMag, magOrder_zero]
    · simp [keyOrder, signedMag, h]

theorem fpOrder_eq {v : FpBits t} (h : fpIsNaN t v = false) : fpOrder t v = keyOrder t (fpKey t v) := by
  rw [fpIsNaN_eq_false_iff] at h
  rw [fpKey, keyOrder_signed, magOrder]
  rcases h.lt_or_eq with h | h
  · have hu := fpUnpack_of_lt h
    rw [fpOrder, hu, if_pos h]
    dsimp only
    rw [numReal_eq_signed]
    cases fpSign t v <;> simp [signed, magValue]
  · rw [fpOrder, fpUnpack_of_eq h, h, if_neg (lt_irrefl _)]
    cases fpSign t v <;> rfl

theorem fpKey_mem {v : FpBits t} (h : fpIsNaN t v = false) : fpKey t v ∈ {k : Int | k.natAbs ≤ infMag t} := by
  rw [Set.mem_ofPred_eq, fpKey_natAbs]
  exact fpIsNaN_eq_false_iff.1 h

end Keys

/-! ### Comparisons -/

section Compare

variable {t : Fmt} {a b : FpBits t} (ha : fpIsNaN t a = false) (hb : fpIsNaN t b = false)

include ha hb

theorem fpKey_lt_iff : fpKey t a < fpKey t b ↔ fpOrder t a < fpOrder t b := by
  rw [fpOrder_eq ha, fpOrder_eq hb, (keyOrder_strictMonoOn t).lt_iff_lt (fpKey_mem ha) (fpKey_mem hb)]

theorem fpKey_le_iff : fpKey t a ≤ fpKey t b ↔ fpOrder t a ≤ fpOrder t b := by
  rw [fpOrder_eq ha, fpOrder_eq hb, (keyOrder_strictMonoOn t).le_iff_le (fpKey_mem ha) (fpKey_mem hb)]

theorem fpKey_eq_iff : fpKey t a = fpKey t b ↔ fpOrder t a = fpOrder t b := by
  rw [fpOrder_eq ha, fpOrder_eq hb, (keyOrder_strictMonoOn t).injOn.eq_iff (fpKey_mem ha) (fpKey_mem hb)]

end Compare

/-- Settles O29: the shape `fpCompare`; the order of the keys is that of the numbers. -/
theorem floatCompareResult : Obligations.FloatCompareResult := by
  refine ⟨fun s rd rs1 rs2 i r h => ?_, fun fmt a b => ⟨fun h => ?_, fun ha hb => ?_⟩⟩
  · exact floatCompare_delivered (List.map_inj_left (f := fun p => exec p.1 s)
      (g := fun p => finishInt rd (if p.2.1 then 1 else 0) p.2.2 s) |>.1 rfl _ h)
  · have hor : (fpIsNaN fmt a || fpIsNaN fmt b) = true := by simpa using h
    rw [fpEq, fpLt, fpLe, if_pos hor, if_pos hor, if_pos hor]
    exact ⟨rfl, rfl, rfl⟩
  · rw [← fpKey_eq_iff ha hb, ← fpKey_lt_iff ha hb, ← fpKey_le_iff ha hb]
    simp [fpEq, fpLt, fpLe, ha, hb]

/-! ### Minimum and maximum -/

section MinMax

variable {t : Fmt} {a b : FpBits t}

/-- Less in the order that puts -0 before +0 is not more in the order of the numbers, and if not less then not less. -/
theorem fpKey_le_of_ltZeros (h : fpLtZeros t a b = true) : fpKey t a ≤ fpKey t b := by
  simp only [fpLtZeros, Bool.or_eq_true, Bool.and_eq_true, decide_eq_true_eq] at h
  omega

theorem fpKey_ge_of_not_ltZeros (h : fpLtZeros t a b = false) : fpKey t b ≤ fpKey t a := by
  simp only [fpLtZeros, Bool.or_eq_false_iff, decide_eq_false_iff_not] at h
  omega

theorem fpMin_of_numbers (ha : fpIsNaN t a = false) (hb : fpIsNaN t b = false) :
    (fpMin t a b).1 = if fpLtZeros t a b then a else b := by simp [fpMin, ha, hb]

theorem fpMax_of_numbers (ha : fpIsNaN t a = false) (hb : fpIsNaN t b = false) :
    (fpMax t a b).1 = if fpLtZeros t a b then b else a := by simp [fpMax, ha, hb]

end MinMax

/-- Settles O36: along the branches of `fpMin` and `fpMax`. -/
theorem minimumMaximum : Obligations.MinimumMaximum := by
  refine fun fmt a b => ⟨fun ha hb => ?_, fun ha hb => ?_, fun ha hb => ?_, fun ha hb => ?_, ?_, ?_, ?_, ?_, rfl, rfl⟩
  · rw [fpMin_of_numbers ha hb, fpMax_of_numbers ha hb]
    cases h : fpLtZeros fmt a b with
    | true =>
      have hle := fpKey_le_of_ltZeros h
      have hord := (fpKey_le_iff ha hb).1 hle
      exact ⟨.inl rfl, .inr rfl, le_rfl, hle, hle, le_rfl, (min_eq_left hord).symm, (max_eq_right hord).symm⟩
    | false =>
      have hle := fpKey_ge_of_not_ltZeros h
      have hord := (fpKey_le_iff hb ha).1 hle
      exact ⟨.inr rfl, .inl rfl, hle, le_rfl, le_rfl, hle, (min_eq_right hord).symm, (max_eq_left hord).symm⟩
  · simp [fpMin, fpMax, ha, hb]
  · simp [fpMin, fpMax, ha, hb]
  · simp [fpMin, fpMax, ha, hb]
  · cases fmt <;> decide
  · cases fmt <;> decide
  · cases fmt <;> decide
  · cases fmt <;> decide

end Sys2Proof.Machine
end
